-- ==== Sys2Proof/Config.lean ====
section
/-! DEFINITION. Config.lean: the parameters of the hardware (spec/00_scope.md rule R9). What the document or the
spec's decisions fix is a plain constant; the one parameter that R9 marks OPEN, the wire format NUM of a Real in a
lane (decision D2), is three constants with no body, of which nothing can be proved. -/

namespace Sys2Proof.Config

/-- `EPS` of R9: the tolerance of the three guards, one millionth. -/
def eps : ℚ := 1 / 1000000

/-- `HUE_PERIOD` of R9, in degrees. -/
def huePeriod : ℚ := 360

/-- The width of one hue sector in degrees (`N_SECTOR` of R9: six sectors, each 60 degrees wide). -/
def sectorWidth : ℚ := 60

/-- `RGB_SCALE` of R9: the scale between an RGB channel and [0,1]. -/
def rgbScale : ℚ := 255

/-- `POLY9` of R9 as R141 writes it: the nine pattern bits, first bit the leading 1. -/
def poly9 : List Bool := [true, true, false, false, true, true, false, true, true]

/-- `POLY8` of R9 and R141: the pattern without its leading 1, the feedback constant of the LFSR. -/
def poly8 : BitVec 8 := 0x9B#8

/-- `CRC_INIT` and `RESET_CRC_R` of R9 (decisions D10, D11): the register at a message boundary and after reset. -/
def crcInit : BitVec 8 := 0x00#8

/-- `CRC_PAD` of R9: the byte appended when the check byte is omitted (R142). -/
def crcPad : BitVec 8 := 0x00#8

/-- `ERR_UNSUPPORTED_REPRESENTATION` of R9: the error code (R170, decision D9). -/
def errUnsupportedRepresentation : BitVec 8 := 0x01#8

/-- `W_NUM` of decision D2: the width of a configured finite wire format of a Real. OPEN: no value is known. -/
opaque wNum : Nat

/-- R63: under a finite wire format a lane is `max(8, W_NUM)` bits wide. -/
def laneWidth : Nat := max 8 wNum

/-- `decode` of decision D2: the Real a lane pattern stands for, none where the format gives it no finite number
(R63). OPEN. It takes the whole lane, so where a format narrower than 8 bits lies in a lane is left open too (log entry 6). -/
opaque numDecode : BitVec laneWidth → Option ℚ

/-- `encode` of decision D2: the lane pattern of a Real. OPEN. -/
opaque numEncode : ℚ → BitVec laneWidth

end Sys2Proof.Config
end

