-- ==== Sys2Proof/Word.lean ====
section
/-! DEFINITION. Word.lean: the value types of the two ports: bytes, Reals, colour rows, lanes and commands
(spec/00_scope.md R10, R12, R17; spec/30_encoding.md R60, R63). -/

namespace Sys2Proof

/-- `u8` of R10. -/
abbrev Byte := BitVec 8

/-- The command word `cw` of R61 and the response word `rw` of R70. -/
abbrev PortWord := BitVec 12

/-- The type `Real` of R12 under decision D1: exact rational arithmetic. -/
abbrev RealNum := ℚ

/-- The bits of one lane where a finite wire format NUM is configured (R63). -/
abbrev LanePattern := BitVec Config.laneWidth

/-- R17: a row tagged RGB. -/
structure RgbRow where
  r : Byte
  g : Byte
  b : Byte
deriving DecidableEq, Repr

/-- R17: a row tagged HSL. -/
structure HslRow where
  h : RealNum
  s : RealNum
  l : RealNum
deriving DecidableEq, Repr

/-- One lane under the default of R63, where NUM adds no encoding. A lane is read whole, as the type the tag gives it
(R44): `u8` is what a form with tag RGB reads, `real` what a form with tag HSL reads (log entry 7). -/
structure ExactLane where
  u8 : Byte
  real : RealNum
deriving DecidableEq, Repr

/-- The three lanes of a command (R60), in the default format or in a configured finite one (R63, log entry 6). -/
inductive Lanes where
  | exact (lane0 lane1 lane2 : ExactLane)
  | wire (lane0 lane1 lane2 : LanePattern)
deriving DecidableEq, Repr

/-- A lane that carries nothing: both readings are zero. -/
def ExactLane.zero : ExactLane := ⟨0#8, 0⟩

/-- Lanes of zeros, as a form that ignores its lanes is encoded. -/
def Lanes.zero : Lanes := .exact ExactLane.zero ExactLane.zero ExactLane.zero

/-- The lanes a host drives for the row `RGB(r, g, b)` in the default format. -/
def Lanes.ofRgb (row : RgbRow) : Lanes := .exact ⟨row.r, 0⟩ ⟨row.g, 0⟩ ⟨row.b, 0⟩

/-- The lanes a host drives for the row `HSL(h, s, l)` in the default format. -/
def Lanes.ofHsl (row : HslRow) : Lanes := .exact ⟨0#8, row.h⟩ ⟨0#8, row.s⟩ ⟨0#8, row.l⟩

/-- A command (R60): one transaction on the command port. -/
structure Command where
  cw : PortWord
  lanes : Lanes
deriving DecidableEq, Repr

end Sys2Proof
end

