-- ==== Sys2Proof/Machine/Arith.lean ====
section
/-! DEFINITION. Machine/Arith.lean: the functions built from `Num` that the datapaths use (spec/00_scope.md R12, R13)
and the cast to 8 bits (spec/40_color.md R108). -/

namespace Sys2Proof.Machine

/-- `real(k)` of R12 for a `u8`. -/
def realOfByte (v : Byte) : RealNum := (v.toNat : RealNum)

/-- R13: the floored modulus. -/
def fmod (a n : RealNum) : RealNum := a - n * ((⌊a / n⌋ : ℤ) : RealNum)

/-- R13: the integer part toward zero. -/
def trunc (a : RealNum) : ℤ := if 0 ≤ a then ⌊a⌋ else -⌊-a⌋

/-- R108: truncate toward zero, keep the low 8 bits. -/
def castU8 (v : RealNum) : Byte := BitVec.ofInt 8 (trunc v)

/-- `min(a, b, c)` of R12. -/
def min3 (a b c : RealNum) : RealNum := min (min a b) c

/-- `max(a, b, c)` of R12. -/
def max3 (a b c : RealNum) : RealNum := max (max a b) c

theorem fmod_nonneg (a : RealNum) {n : RealNum} (hn : 0 < n) : 0 ≤ fmod a n := by
  have h := mul_le_mul_of_nonneg_left (Int.floor_le (a / n)) hn.le
  rw [mul_div_cancel₀ a hn.ne'] at h
  exact sub_nonneg.mpr h

theorem fmod_lt (a : RealNum) {n : RealNum} (hn : 0 < n) : fmod a n < n := by
  have h := mul_lt_mul_of_pos_left (Int.lt_floor_add_one (a / n)) hn
  rw [mul_div_cancel₀ a hn.ne', mul_add, mul_one] at h
  exact sub_lt_iff_lt_add'.mpr h

end Sys2Proof.Machine
end

