-- ==== Sys2Proof/Machine/HslToRgb.lean ====
section
/-! DEFINITION. Machine/HslToRgb.lean: the HSL-to-RGB datapath, one definition a stage (spec/40_color.md R100 to R109). -/

namespace Sys2Proof.Machine

/-- R101. -/
def chromaOfHsl (S L : RealNum) : RealNum := (1 - |2 * L - 1|) * S

/-- R102, with the range the rule states: the hue in units of one sector, in [0,6). -/
def huePrime (H : RealNum) : { hp : RealNum // 0 ≤ hp ∧ hp < 6 } :=
  ⟨fmod H Config.huePeriod / Config.sectorWidth, by
    have h0 := fmod_nonneg H (n := Config.huePeriod) (by norm_num [Config.huePeriod])
    have h1 := fmod_lt H (n := Config.huePeriod) (by norm_num [Config.huePeriod])
    unfold Config.sectorWidth
    unfold Config.huePeriod at h0 h1 ⊢
    constructor
    · positivity
    · rw [div_lt_iff₀ (by norm_num)]
      linarith⟩

theorem floor_lt_six {hp : RealNum} (h : 0 ≤ hp ∧ hp < 6) : ⌊hp⌋.toNat < 6 := by
  have h6 : ⌊hp⌋ < 6 := Int.floor_lt.mpr (by exact_mod_cast h.2)
  omega

/-- R103: the sector index, 0 to 5. -/
def sector (hp : { hp : RealNum // 0 ≤ hp ∧ hp < 6 }) : Fin 6 := ⟨⌊hp.val⌋.toNat, floor_lt_six hp.property⟩

/-- R104. -/
def secondComponent (c hp : RealNum) : RealNum := c * (1 - |fmod hp 2 - 1|)

/-- R105. -/
def lightnessOffset (c L : RealNum) : RealNum := L - c / 2

/-- R106: the sector multiplexer, one row an arm; it has no default arm. -/
def sectorTriple (c x : RealNum) (k : Fin 6) : RealNum × RealNum × RealNum :=
  match k with
  | 0 => (c, x, 0)
  | 1 => (x, c, 0)
  | 2 => (0, c, x)
  | 3 => (0, x, c)
  | 4 => (x, 0, c)
  | 5 => (c, 0, x)

/-- R107: the addition first. -/
def scaleChannel (p m : RealNum) : RealNum := (p + m) * Config.rgbScale

/-- R109: the whole datapath. -/
def hslToRgbRow (row : HslRow) : RgbRow :=
  let c := chromaOfHsl row.s row.l
  let hp := huePrime row.h
  let x := secondComponent c hp.val
  let m := lightnessOffset c row.l
  let p := sectorTriple c x (sector hp)
  ⟨castU8 (scaleChannel p.1 m), castU8 (scaleChannel p.2.1 m), castU8 (scaleChannel p.2.2 m)⟩

end Sys2Proof.Machine
end

