-- ==== Sys2Proof/Syntax.lean ====
section
/-! DEFINITION. Syntax.lean: the nine command forms of spec/30_encoding.md rule R62, the whole instruction set of the
block (R180). A constructor holds exactly the operands its form uses: the lanes, the two tag bits, or the byte. -/

namespace Sys2Proof

/-- The nine command forms (R62). -/
inductive Instr where
  /-- `TO_RGB.RGB` (R120): the operand row is in the lanes. -/
  | toRgbRgb (lanes : Lanes)
  /-- `TO_RGB.HSL` (R121): the operand row is in the lanes. -/
  | toRgbHsl (lanes : Lanes)
  /-- `TO_RGB.BAD` (R122): the two tag bits `aux = 1t`. -/
  | toRgbBad (aux : BitVec 2)
  /-- `TO_HSL.RGB` (R123): the operand row is in the lanes. -/
  | toHslRgb (lanes : Lanes)
  /-- `TO_HSL.HSL` (R124): the operand row is in the lanes. -/
  | toHslHsl (lanes : Lanes)
  /-- `TO_HSL.BAD` (R125): the two tag bits `aux = 1t`. -/
  | toHslBad (aux : BitVec 2)
  /-- `CRC_DATA` (R149): one data byte. -/
  | crcData (byte : Byte)
  /-- `CRC_END` (R150): no operand. -/
  | crcEnd
  /-- `CRC_CHECK` (R151): the check byte. -/
  | crcCheck (check : Byte)
deriving DecidableEq, Repr

end Sys2Proof
end

