-- ==== Sys2Proof/WellFormed.lean ====
section
/-! DEFINITION. WellFormed.lean: which instructions the encoding can carry. The only operand that its field does not
bound is the tag of a BAD form: it holds neither RGB (00) nor HSL (01), so its high bit is set (spec/30_encoding.md
R62, R64). -/

namespace Sys2Proof

/-- R64: `10` and `11` are neither RGB nor HSL. -/
def tagIsNeither (aux : BitVec 2) : Bool := aux.getLsbD 1

def wellFormed : Instr → Bool
  | .toRgbRgb _ => true
  | .toRgbHsl _ => true
  | .toRgbBad aux => tagIsNeither aux
  | .toHslRgb _ => true
  | .toHslHsl _ => true
  | .toHslBad aux => tagIsNeither aux
  | .crcData _ => true
  | .crcEnd => true
  | .crcCheck _ => true

abbrev WellFormed (i : Instr) : Prop := wellFormed i = true

end Sys2Proof
end

