-- ==== Sys2Proof/Decode.lean ====
section
/-! DEFINITION. Decode.lean: the command word's fields (spec/30_encoding.md R61), the opcode map (R62), the decoder,
which is total (R67), and the encoder, which writes zeros in ignored places (R66). -/

namespace Sys2Proof

/-! ### The fields of the command word (R61) -/

/-- `cw[1:0]`. -/
def opField (cw : PortWord) : BitVec 2 := cw.extractLsb' 0 2

/-- `cw[3:2]`. -/
def auxField (cw : PortWord) : BitVec 2 := cw.extractLsb' 2 2

/-- `cw[11:4]`. -/
def byteField (cw : PortWord) : Byte := cw.extractLsb' 4 8

/-- `has_check = cw[2]` (R61, R65). -/
def hasCheck (cw : PortWord) : Bool := cw.getLsbD 2

/-- Format `CW` put together: the byte in bits 11 to 4, `aux` in bits 3 to 2, `op` in bits 1 to 0 (R61). -/
def commandWord (byte : Byte) (aux op : BitVec 2) : PortWord := byte ++ aux ++ op

/-! ### The opcode map (R62) -/

/-- The nine rows of R62 by name. -/
inductive Form where
  | toRgbRgb | toRgbHsl | toRgbBad | toHslRgb | toHslHsl | toHslBad | crcData | crcEnd | crcCheck
deriving DecidableEq, Repr

/-- One row of R62's table: a word selects it when `cw &&& mask = pattern`. `used` has a one at every bit that is not
marked `x` in the row's encoding column (the bits the form's behaviour may depend on, R66), and `usesLanes` is the
column of that name. -/
structure OpcodeRow where
  form : Form
  pattern : PortWord
  mask : PortWord
  used : PortWord
  usesLanes : Bool
deriving DecidableEq, Repr

/-- The row of each form, as R62 prints it. -/
def opcodeRow : Form → OpcodeRow
  | .toRgbRgb => ⟨.toRgbRgb, 0x000, 0x00F, 0x00F, true⟩
  | .toRgbHsl => ⟨.toRgbHsl, 0x004, 0x00F, 0x00F, true⟩
  | .toRgbBad => ⟨.toRgbBad, 0x008, 0x00B, 0x00F, false⟩
  | .toHslRgb => ⟨.toHslRgb, 0x001, 0x00F, 0x00F, true⟩
  | .toHslHsl => ⟨.toHslHsl, 0x005, 0x00F, 0x00F, true⟩
  | .toHslBad => ⟨.toHslBad, 0x009, 0x00B, 0x00F, false⟩
  | .crcData => ⟨.crcData, 0x002, 0x003, 0xFF3, false⟩
  | .crcEnd => ⟨.crcEnd, 0x003, 0x007, 0x007, false⟩
  | .crcCheck => ⟨.crcCheck, 0x007, 0x007, 0xFF7, false⟩

/-- The table of R62, in its order. -/
def opcodeTable : List OpcodeRow :=
  [.toRgbRgb, .toRgbHsl, .toRgbBad, .toHslRgb, .toHslHsl, .toHslBad, .crcData, .crcEnd, .crcCheck].map opcodeRow

/-- Does the word select the row (R62)? -/
def OpcodeRow.selectedBy (row : OpcodeRow) (cw : PortWord) : Bool := cw &&& row.mask == row.pattern

/-- The form an instruction is of. -/
def formOf : Instr → Form
  | .toRgbRgb _ => .toRgbRgb
  | .toRgbHsl _ => .toRgbHsl
  | .toRgbBad _ => .toRgbBad
  | .toHslRgb _ => .toHslRgb
  | .toHslHsl _ => .toHslHsl
  | .toHslBad _ => .toHslBad
  | .crcData _ => .crcData
  | .crcEnd => .crcEnd
  | .crcCheck _ => .crcCheck

/-! ### The decoder -/

/-- The form of a command, read from the fields `op` and `aux` (R61, R64, R65). Total: every word is a command form
(R67). The byte and the lanes are taken only by the forms that use them (R66). -/
def decode (c : Command) : Instr :=
  if opField c.cw = 0b00#2 then
    if auxField c.cw = 0b00#2 then .toRgbRgb c.lanes
    else if auxField c.cw = 0b01#2 then .toRgbHsl c.lanes
    else .toRgbBad (auxField c.cw)
  else if opField c.cw = 0b01#2 then
    if auxField c.cw = 0b00#2 then .toHslRgb c.lanes
    else if auxField c.cw = 0b01#2 then .toHslHsl c.lanes
    else .toHslBad (auxField c.cw)
  else if opField c.cw = 0b10#2 then .crcData (byteField c.cw)
  else if hasCheck c.cw then .crcCheck (byteField c.cw)
  else .crcEnd

/-- Do the two commands agree wherever the form of the first one uses them (R66)? -/
def agreeWhereUsed (c d : Command) : Bool :=
  let row := opcodeRow (formOf (decode c))
  c.cw &&& row.used == d.cw &&& row.used && (!row.usesLanes || c.lanes == d.lanes)

/-! ### The encoder -/

/-- The command of an instruction: the fixed bits of R62's encoding column, the operands, and zeros in every ignored
bit and lane (R66). -/
def encode : Instr → Command
  | .toRgbRgb lanes => ⟨commandWord 0#8 0b00#2 0b00#2, lanes⟩
  | .toRgbHsl lanes => ⟨commandWord 0#8 0b01#2 0b00#2, lanes⟩
  | .toRgbBad aux => ⟨commandWord 0#8 aux 0b00#2, Lanes.zero⟩
  | .toHslRgb lanes => ⟨commandWord 0#8 0b00#2 0b01#2, lanes⟩
  | .toHslHsl lanes => ⟨commandWord 0#8 0b01#2 0b01#2, lanes⟩
  | .toHslBad aux => ⟨commandWord 0#8 aux 0b01#2, Lanes.zero⟩
  | .crcData byte => ⟨commandWord byte 0b00#2 0b10#2, Lanes.zero⟩
  | .crcEnd => ⟨commandWord 0#8 0b00#2 0b11#2, Lanes.zero⟩
  | .crcCheck check => ⟨commandWord check 0b01#2 0b11#2, Lanes.zero⟩

/-! ### The opcode table's words -/

/-- What the decoder reads from a word numbered as spec/opcode_table.json numbers it. The command word is the
instruction's one word and has 12 bits, so a number of 4096 or more is no command word and is refused; the lanes, which
the table gives no bits, are zeros (log entry 14). -/
def decodeTableWord (_nbits w : Nat) : Option Instr :=
  if w < 4096 then some (decode ⟨BitVec.ofNat 12 w, Lanes.zero⟩) else none

end Sys2Proof
end

