-- ==== Sys2Proof/Machine/State.lean ====
section
/-! DEFINITION. Machine/State.lean: the state of the block, the response it gives, and the reasons a step can stop.
The block's own state is the one register `crc_r` (spec/10_state.md R20). The two port fields are the model's: what the
host has issued and not yet had accepted, and what the block has delivered (log entries 1 and 2). The block has no
memory, no program counter, no flag and no control register (R21 to R26, R40). -/

namespace Sys2Proof.Machine

/-- What the host can do to the block (R52): reset it, or issue a command. -/
inductive HostEvent where
  | reset
  | command (c : Command)
deriving DecidableEq, Repr

/-- The lanes of a response (R70): the result row for `kind = COLOR`, typed by the tag as in R63; absent otherwise. -/
inductive ResponseLanes where
  /-- The lanes carry no value. -/
  | absent
  /-- Three `u8`. -/
  | rgb (row : RgbRow)
  /-- Three Reals in the default format. -/
  | hsl (row : HslRow)
  /-- Three Reals in a configured finite format. -/
  | wire (lane0 lane1 lane2 : LanePattern)
deriving DecidableEq, Repr

/-- A response (R70): one transaction on the response port. -/
structure Response where
  rw : PortWord
  lanes : ResponseLanes
deriving DecidableEq, Repr

/-- Why the machine stops. -/
inductive Fault where
  /-- Raised by `CRC_DATA`, `CRC_END` and `CRC_CHECK` accepted before the first reset, when `crc_r` has no value
  (R35, R181). Safe: the hardware goes on with an unspecified value, the model stops. -/
  | crcBeforeReset
deriving DecidableEq, Repr

/-- Why an instruction is given no meaning. -/
inductive Refusal where
  /-- Raised by `exec` for a command form that has no meaning in the model; no form is left so. Safe. -/
  | notModelled (mnemonic : String)
  /-- Raised by `TO_RGB.HSL` and `TO_HSL.HSL` on a lane that a configured finite NUM does not decode to a finite
  number (R63, R181, decision D19). It never arises in the default format. Safe. -/
  | laneNotFinite
deriving DecidableEq, Repr

/-- The state. -/
structure State where
  /-- The register `crc_r` (R20); none from power-on to the first reset, where it has no value (R35). -/
  crcR : Option Byte
  /-- The command port: what the host has issued, oldest first (R41, R47; the model's own field). -/
  commandPort : List HostEvent
  /-- The response port: every response delivered so far, oldest first (R41, R42; the model's own field). -/
  responses : List Response
deriving DecidableEq, Repr

/-- R34: after reset `crc_r` is 0x00, no command is in progress and no response is pending. -/
def State.reset : State := ⟨some Config.crcInit, [], []⟩

/-- R35: before the first reset `crc_r` has no value. -/
def State.powerOn : State := ⟨none, [], []⟩

end Sys2Proof.Machine
end

