-- ==== Sys2Proof/Machine/Operands.lean ====
section
/-! DEFINITION. Machine/Operands.lean: reading the three lanes as a row and putting an HSL row into response lanes
(spec/30_encoding.md R63, R70). -/

namespace Sys2Proof.Machine

/-- Bits 7 to 0 of a lane, the higher bits ignored (R63). -/
def lowByte (p : LanePattern) : Byte := p.extractLsb' 0 8

/-- The operand row `RGB(r, g, b)` of a form with tag RGB (R63). -/
def readRgbRow : Lanes → RgbRow
  | .exact l0 l1 l2 => ⟨l0.u8, l1.u8, l2.u8⟩
  | .wire p0 p1 p2 => ⟨lowByte p0, lowByte p1, lowByte p2⟩

/-- The three Reals of three lane patterns, none if one of them decodes to no finite number. -/
def decodePatterns (p0 p1 p2 : LanePattern) : Option HslRow :=
  match Config.numDecode p0, Config.numDecode p1, Config.numDecode p2 with
  | some h, some s, some l => some ⟨h, s, l⟩
  | _, _, _ => none

/-- The operand row `HSL(h, s, l)` of a form with tag HSL (R63). -/
def readHslRow : Lanes → Option HslRow
  | .exact l0 l1 l2 => some ⟨l0.real, l1.real, l2.real⟩
  | .wire p0 p1 p2 => decodePatterns p0 p1 p2

/-- The response lanes of a computed HSL row, in the format the command's lanes came in (R70 "exactly as in rule R63"). -/
def writeHslRow (format : Lanes) (row : HslRow) : ResponseLanes :=
  match format with
  | .exact _ _ _ => .hsl row
  | .wire _ _ _ => .wire (Config.numEncode row.h) (Config.numEncode row.s) (Config.numEncode row.l)

/-- The response lanes that return the operand of a form with tag HSL unchanged: in a finite format the lane patterns
themselves (R124, decision D20). -/
def echoHslRow : Lanes → ResponseLanes
  | .exact l0 l1 l2 => .hsl ⟨l0.real, l1.real, l2.real⟩
  | .wire p0 p1 p2 => .wire p0 p1 p2

end Sys2Proof.Machine
end

