-- ==== Sys2Proof/Machine/Ops.lean ====
section
/-! DEFINITION. Machine/Ops.lean: the named operations over the state: reading and writing `crc_r`, putting a response
on the port, raising the one exception, reset, and accepting what the host issued. -/

namespace Sys2Proof.Machine

/-! ### The register -/

/-- The value of `crc_r`, none before the first reset (R14, R35). -/
def readCrc (s : State) : Option Byte := s.crcR

/-- `crc_r <- v` (R14). -/
def writeCrc (v : Byte) (s : State) : State := { s with crcR := some v }

/-! ### The response word (R70) -/

/-- The field `kind` of the response word. -/
inductive Kind where
  | ack | color | crc | err
deriving DecidableEq, Repr

def kindCode : Kind → BitVec 2
  | .ack => 0b00#2
  | .color => 0b01#2
  | .crc => 0b10#2
  | .err => 0b11#2

/-- `tag` of an RGB row (R64). -/
def tagRgb : BitVec 2 := 0b00#2

/-- `tag` of an HSL row (R64). -/
def tagHsl : BitVec 2 := 0b01#2

/-- The byte in bits 11 to 4, the tag in bits 3 to 2, the kind in bits 1 to 0. -/
def responseWord (kind : Kind) (tag : BitVec 2) (byte : Byte) : PortWord := byte ++ tag ++ kindCode kind

/-- R71, `CRC_DATA`: the acknowledge. -/
def ackResponse : Response := ⟨responseWord .ack 0b00#2 0#8, .absent⟩

/-- R71: a COLOR response, its unused byte zero. -/
def colorResponse (tag : BitVec 2) (lanes : ResponseLanes) : Response := ⟨responseWord .color tag 0#8, lanes⟩

/-- R71: a CRC response with result `v`. -/
def crcResponse (v : Byte) : Response := ⟨responseWord .crc 0b00#2 v, .absent⟩

/-- R170, R71: the error response: the code in the byte field, the offending tag bits copied. -/
def errResponse (aux : BitVec 2) : Response := ⟨responseWord .err aux Config.errUnsupportedRepresentation, .absent⟩

/-! ### Responding and the one exception -/

/-- `respond` of R16: one response, after every earlier one (R42). -/
def respond (r : Response) (s : State) : State := { s with responses := s.responses ++ [r] }

/-- `raise UnsupportedRepresentation(aux)` of R170: the error response and nothing more; no state is saved or changed,
nothing is sticky, control goes nowhere (R175, R176). There is no return from it (R176). -/
def raiseUnsupported (aux : BitVec 2) (s : State) : State := respond (errResponse aux) s

/-! ### Host events -/

/-- The whole effect of reset (R190): `crc_r <- 0x00`, no response. -/
def applyReset (s : State) : State := writeCrc Config.crcInit s

/-- The host's oldest event, with the state in which it is no longer waiting; none when the host has issued nothing. -/
def acceptEvent (s : State) : Option (HostEvent × State) :=
  match s.commandPort with
  | [] => none
  | e :: rest => some (e, { s with commandPort := rest })

/-- The host issues an event before everything that waits. -/
def issueFirst (e : HostEvent) (s : State) : State := { s with commandPort := e :: s.commandPort }

end Sys2Proof.Machine
end

