-- ==== Sys2Proof/Machine/RgbToHsl.lean ====
section
/-! DEFINITION. Machine/RgbToHsl.lean: the RGB-to-HSL datapath, one definition a stage (spec/40_color.md R110 to R118). -/

namespace Sys2Proof.Machine

/-- R110. -/
def normalise (v : Byte) : RealNum := realOfByte v / Config.rgbScale

/-- R111. -/
def cMin (row : RgbRow) : RealNum := min3 (normalise row.r) (normalise row.g) (normalise row.b)

/-- R111. -/
def cMax (row : RgbRow) : RealNum := max3 (normalise row.r) (normalise row.g) (normalise row.b)

/-- R112: the lightness before the guard, `L0`. -/
def rawLightness (row : RgbRow) : RealNum := (cMax row + cMin row) / 2

/-- R113. -/
def chromaOfRgb (row : RgbRow) : RealNum := cMax row - cMin row

/-- R114: the degenerate-lightness guard. -/
def guardLightness (l0 : RealNum) : RealNum :=
  if |l0 - 0| ≤ Config.eps then l0 + Config.eps
  else if |l0 - 1| ≤ Config.eps then l0 - Config.eps
  else l0

/-- The divisor of the saturation stage, `d4` of R115. -/
def saturationDivisor (l : RealNum) : RealNum := 1 - |2 * l - 1|

/-- R115, with the unguarded maximum and the guarded lightness. -/
def saturationStage (cmax l : RealNum) : RealNum := 2 * (cmax - l) / saturationDivisor l

/-- The three channels, in the order of R17. -/
inductive Channel where
  | red | green | blue
deriving DecidableEq, Repr

/-- The normalised value of a channel. -/
def channelValue (row : RgbRow) : Channel → RealNum
  | .red => normalise row.r
  | .green => normalise row.g
  | .blue => normalise row.b

/-- R116: the first channel that attains the maximum, in the order R, G, B. -/
def argmaxChannel (row : RgbRow) : Channel :=
  if normalise row.r = cMax row then .red
  else if normalise row.g = cMax row then .green
  else .blue

/-- R117, the three coloured cases: the hue by the formula of the given channel. -/
def hueOfChannel (row : RgbRow) : Channel → RealNum
  | .red => 60 * fmod ((normalise row.g - normalise row.b) / chromaOfRgb row) 6
  | .green => 60 * ((normalise row.b - normalise row.r) / chromaOfRgb row + 2)
  | .blue => 60 * ((normalise row.r - normalise row.g) / chromaOfRgb row + 4)

/-- R117: zero for a grey, else by the selected channel. -/
def hueStage (row : RgbRow) : RealNum :=
  if |chromaOfRgb row - 0| ≤ Config.eps then 0 else hueOfChannel row (argmaxChannel row)

/-- R118: the whole datapath. -/
def rgbToHslRow (row : RgbRow) : HslRow :=
  let l := guardLightness (rawLightness row)
  ⟨hueStage row, saturationStage (cMax row) l, l⟩

end Sys2Proof.Machine
end

