-- ==== Sys2Proof/Machine/Color.lean ====
section
/-! DEFINITION. Machine/Color.lean: the meanings of the six COLOR forms (spec/40_color.md R120 to R125). None of them
reads or writes `crc_r` (spec/20_memory.md R50). -/

namespace Sys2Proof.Machine

/-- `TO_RGB.RGB` (R120): the row unchanged. -/
def execToRgbRgb (lanes : Lanes) (s : State) : Host.Outcome State Fault Refusal :=
  .next (respond (colorResponse tagRgb (.rgb (readRgbRow lanes))) s)

/-- `TO_RGB.HSL` (R121): the HSL-to-RGB datapath. -/
def execToRgbHsl (lanes : Lanes) (s : State) : Host.Outcome State Fault Refusal :=
  match readHslRow lanes with
  | some row => .next (respond (colorResponse tagRgb (.rgb (hslToRgbRow row))) s)
  | none => .refused .laneNotFinite

/-- `TO_RGB.BAD` (R122): the exception, always. -/
def execToRgbBad (aux : BitVec 2) (s : State) : Host.Outcome State Fault Refusal :=
  .next (raiseUnsupported aux s)

/-- `TO_HSL.RGB` (R123): the RGB-to-HSL datapath. -/
def execToHslRgb (lanes : Lanes) (s : State) : Host.Outcome State Fault Refusal :=
  .next (respond (colorResponse tagHsl (writeHslRow lanes (rgbToHslRow (readRgbRow lanes)))) s)

/-- `TO_HSL.HSL` (R124): the row unchanged, with no reduction, clamp or range check. -/
def execToHslHsl (lanes : Lanes) (s : State) : Host.Outcome State Fault Refusal :=
  match readHslRow lanes with
  | some _ => .next (respond (colorResponse tagHsl (echoHslRow lanes)) s)
  | none => .refused .laneNotFinite

/-- `TO_HSL.BAD` (R125): the exception, always. -/
def execToHslBad (aux : BitVec 2) (s : State) : Host.Outcome State Fault Refusal :=
  .next (raiseUnsupported aux s)

end Sys2Proof.Machine
end

