-- ==== Sys2Proof/Machine/Lfsr.lean ====
section
/-! DEFINITION. Machine/Lfsr.lean: the shift register that computes the CRC byte by byte (spec/41_crc.md R146, R147),
and the equivalent direct form the spec gives for information (R159). -/

namespace Sys2Proof.Machine

/-- R146: the register shifted left by one, the message bit entering at bit 0. -/
def shiftIn (s : Byte) (d : Bool) : Byte := s.extractLsb' 0 7 ++ BitVec.ofBool d

/-- R146: one bit step. The bit that leaves decides the feedback. -/
def lfsrBit (s : Byte) (d : Bool) : Byte :=
  if s.getLsbD 7 then shiftIn s d ^^^ Config.poly8 else shiftIn s d

/-- R147: the eight bits of a byte, most significant first. -/
def lfsrByte (s y : Byte) : Byte :=
  [7, 6, 5, 4, 3, 2, 1, 0].foldl (fun s k => lfsrBit s (y.getLsbD k)) s

/-- The register after a sequence of bytes (R148). -/
def lfsrBytes (s : Byte) (bytes : List Byte) : Byte := bytes.foldl lfsrByte s

/-- R159: the byte XORed into the register, then eight shifts with zero input. -/
def directByte (s y : Byte) : Byte := lfsrByte (s ^^^ y) 0#8

/-- R159: the CRC without the appended byte. -/
def directCrc (data : List Byte) : Byte := data.foldl directByte 0#8

end Sys2Proof.Machine
end

