-- ==== Sys2Proof/Machine/Crc.lean ====
section
/-! DEFINITION. Machine/Crc.lean: the meanings of the three CRC forms (spec/41_crc.md R149 to R151). Before the first
reset each of them faults, because `crc_r` has no value (spec/10_state.md R35). -/

namespace Sys2Proof.Machine

/-- `CRC_DATA` (R149): one data byte into the register, and an acknowledge. -/
def execCrcData (byte : Byte) (s : State) : Host.Outcome State Fault Refusal :=
  match readCrc s with
  | some r => .next (respond ackResponse (writeCrc (lfsrByte r byte) s))
  | none => .fault .crcBeforeReset

/-- What both closing forms do (R150, R151): shift the last byte in, clear the register, answer the result. -/
def closeMessage (last : Byte) (r : Byte) (s : State) : State :=
  respond (crcResponse (lfsrByte r last)) (writeCrc Config.crcInit s)

/-- `CRC_END` (R150): the zero pad byte closes the message. -/
def execCrcEnd (s : State) : Host.Outcome State Fault Refusal :=
  match readCrc s with
  | some r => .next (closeMessage Config.crcPad r s)
  | none => .fault .crcBeforeReset

/-- `CRC_CHECK` (R151): the check byte closes the message. -/
def execCrcCheck (check : Byte) (s : State) : Host.Outcome State Fault Refusal :=
  match readCrc s with
  | some r => .next (closeMessage check r s)
  | none => .fault .crcBeforeReset

end Sys2Proof.Machine
end

