-- ==== Sys2Proof/Machine/Dispatch.lean ====
section
/-! DEFINITION. Machine/Dispatch.lean: one arm per command form (spec/30_encoding.md R62). -/

namespace Sys2Proof.Machine

def exec (i : Instr) (s : State) : Host.Outcome State Fault Refusal :=
  match i with
  | .toRgbRgb lanes => Sys2Proof.Machine.execToRgbRgb lanes s
  | .toRgbHsl lanes => Sys2Proof.Machine.execToRgbHsl lanes s
  | .toRgbBad aux => Sys2Proof.Machine.execToRgbBad aux s
  | .toHslRgb lanes => Sys2Proof.Machine.execToHslRgb lanes s
  | .toHslHsl lanes => Sys2Proof.Machine.execToHslHsl lanes s
  | .toHslBad aux => Sys2Proof.Machine.execToHslBad aux s
  | .crcData byte => Sys2Proof.Machine.execCrcData byte s
  | .crcEnd => Sys2Proof.Machine.execCrcEnd s
  | .crcCheck check => Sys2Proof.Machine.execCrcCheck check s

end Sys2Proof.Machine
end

