-- ==== Sys2Proof/Machine/Step.lean ====
section
/-! DEFINITION. Machine/Step.lean: one step of the block: the host's oldest event is accepted and carried out to its end
(spec/20_memory.md R46, R47; spec/70_reset_and_hazards.md R190). -/

namespace Sys2Proof.Machine

/-- One step. With nothing issued the block waits and nothing changes (log entry 3). -/
def step (s : State) : Host.Outcome State Fault Refusal :=
  match acceptEvent s with
  | none => .next s
  | some (.reset, t) => .next (applyReset t)
  | some (.command c, t) => exec (decode c) t

/-- The state in which the next step accepts the command whose word is `w`, numbered as spec/opcode_table.json numbers
it, with lanes of zeros: the host issues it before everything that waits (log entry 11). -/
def State.withFetchWord (s : State) (_nbits w : Nat) : State :=
  issueFirst (.command ⟨BitVec.ofNat 12 w, Lanes.zero⟩) s

end Sys2Proof.Machine
end

