-- ==== Sys2Proof/Machine/Assembler.lean ====
section
/-! DEFINITION. Machine/Assembler.lean: what the host sends for a line of the spec's assembler (spec/30_encoding.md R72)
and for a call of the document's library (R73). Nothing here is part of the block; a line is given as its parsed
operands, not as text (log entry 18). -/

namespace Sys2Proof.Machine

/-! ### Assembler lines (R72) -/

/-- One line: the operation and the operand constructor (`rgb`, `hsl`, `raw`) select the form; integer operands are as
written, before the range check. -/
inductive AsmLine where
  | toRgbRgb (r g b : ℤ)
  | toRgbHsl (h s l : RealNum)
  | toRgbRaw (t : ℤ)
  | toHslRgb (r g b : ℤ)
  | toHslHsl (h s l : RealNum)
  | toHslRaw (t : ℤ)
  | crcData (b : ℤ)
  | crcEnd
  | crcCheck (c : ℤ)
deriving DecidableEq, Repr

/-- An operand that must be an integer 0 to 255; another one is refused. -/
def byteOperand (n : ℤ) : Option Byte := if 0 ≤ n ∧ n ≤ 255 then some (BitVec.ofInt 8 n) else none

/-- The operand of `raw`, 2 or 3. -/
def tagOperand (t : ℤ) : Option (BitVec 2) := if t = 2 ∨ t = 3 then some (BitVec.ofInt 2 t) else none

/-- The operands of `rgb(r, g, b)` as lanes. -/
def rgbOperand (r g b : ℤ) : Option Lanes :=
  match byteOperand r, byteOperand g, byteOperand b with
  | some r, some g, some b => some (Lanes.ofRgb ⟨r, g, b⟩)
  | _, _, _ => none

/-- The command form of a line, none where the assembler refuses it. -/
def lineInstr : AsmLine → Option Instr
  | .toRgbRgb r g b => (rgbOperand r g b).map .toRgbRgb
  | .toRgbHsl h s l => some (.toRgbHsl (Lanes.ofHsl ⟨h, s, l⟩))
  | .toRgbRaw t => (tagOperand t).map .toRgbBad
  | .toHslRgb r g b => (rgbOperand r g b).map .toHslRgb
  | .toHslHsl h s l => some (.toHslHsl (Lanes.ofHsl ⟨h, s, l⟩))
  | .toHslRaw t => (tagOperand t).map .toHslBad
  | .crcData b => (byteOperand b).map .crcData
  | .crcEnd => some .crcEnd
  | .crcCheck c => (byteOperand c).map .crcCheck

/-- The command the assembler writes, ignored fields zero. -/
def assemble (line : AsmLine) : Option Command := (lineInstr line).map encode

/-! ### Library calls (R73) -/

/-- `ColorModel.from_rgb(r,g,b).to_rgb()`. -/
def callRgbToRgb (row : RgbRow) : Command := encode (.toRgbRgb (Lanes.ofRgb row))

/-- `ColorModel.from_rgb(r,g,b).to_hsl()`. -/
def callRgbToHsl (row : RgbRow) : Command := encode (.toHslRgb (Lanes.ofRgb row))

/-- `ColorModel.from_hsl(h,s,l).to_rgb()`. -/
def callHslToRgb (row : HslRow) : Command := encode (.toRgbHsl (Lanes.ofHsl row))

/-- `ColorModel.from_hsl(h,s,l).to_hsl()`. -/
def callHslToHsl (row : HslRow) : Command := encode (.toHslHsl (Lanes.ofHsl row))

/-- A batch call: one command a row, in order. -/
def callBatch {Row : Type} (call : Row → Command) (rows : List Row) : List Command := rows.map call

/-- The command that closes a message: `CRC_END`, or `CRC_CHECK c` where a check byte is given. -/
def closingCommand : Option Byte → Command
  | none => encode .crcEnd
  | some c => encode (.crcCheck c)

/-- `crc8(data)` and `crc8(data, c)`. -/
def callCrc8 (data : List Byte) (check : Option Byte) : List Command :=
  data.map (fun b => encode (.crcData b)) ++ [closingCommand check]

end Sys2Proof.Machine
end

