-- ==== Sys2Proof/Machine/LongDivision.lean ====
section
/-! DEFINITION. Machine/LongDivision.lean: the CRC value as the document defines it, binary long division of the whole
bit sequence (spec/41_crc.md R140 to R145). This is the normative definition; the machine runs the register of
Machine/Lfsr.lean, and that the two agree is a statement for the provers (R148). Bit sequences are indexed as in
spec/00_scope.md R11: index 0 is the first bit. -/

namespace Sys2Proof.Machine

/-- R142: the byte appended to the data. -/
def appendedByte : Option Byte → Byte
  | none => Config.crcPad
  | some c => c

/-- R143: bit `k` of the sequence is `y[7-k]`. -/
def expandByte (y : Byte) : List Bool := [7, 6, 5, 4, 3, 2, 1, 0].map y.getLsbD

/-- R143. -/
def expandBits (bytes : List Byte) : List Bool := bytes.flatMap expandByte

/-- R144: the nine pattern bits XORed into the window that begins at position `i`, in place. -/
def xorWindow (i : Nat) (bits : List Bool) : List Bool :=
  bits.mapIdx fun n b => if i ≤ n then b ^^ Config.poly9.getD (n - i) false else b

/-- R144: the division step at position `i`. -/
def divideAt (bits : List Bool) (i : Nat) : List Bool :=
  if bits.getD i false then xorWindow i bits else bits

/-- R144: every position from 0 to `total - 9`, in increasing order. -/
def divideBits (bits : List Bool) : List Bool :=
  (List.range (bits.length - 8)).foldl divideAt bits

/-- R145: bits packed most significant first. -/
def packBits (q : List Bool) : Byte := BitVec.ofNat 8 (q.foldl (fun n b => 2 * n + b.toNat) 0)

/-- R140: the CRC value of a message. -/
def crc8 (data : List Byte) (check : Option Byte) : Byte :=
  let bits := expandBits (data ++ [appendedByte check])
  packBits ((divideBits bits).drop (bits.length - 8))

end Sys2Proof.Machine
end

