-- ==== Sys2Proof/Safety.lean ====
section
/-! DEFINITION. Safety.lean: the terms in which claims about the block are stated: which forms belong to which unit,
which responses are legal, the invariant, and a run of several steps (spec/20_memory.md R42, R47; spec/30_encoding.md
R70, R71; spec/70_reset_and_hazards.md R196). -/

namespace Sys2Proof.Machine

/-! ### Classes of forms -/

/-- The three forms of the CRC unit (R62). -/
def isCrcForm : Instr → Bool
  | .toRgbRgb _ => false
  | .toRgbHsl _ => false
  | .toRgbBad _ => false
  | .toHslRgb _ => false
  | .toHslHsl _ => false
  | .toHslBad _ => false
  | .crcData _ => true
  | .crcEnd => true
  | .crcCheck _ => true

/-- The two forms that close a message (R48). -/
def closesMessage : Instr → Bool
  | .toRgbRgb _ => false
  | .toRgbHsl _ => false
  | .toRgbBad _ => false
  | .toHslRgb _ => false
  | .toHslHsl _ => false
  | .toHslBad _ => false
  | .crcData _ => false
  | .crcEnd => true
  | .crcCheck _ => true

/-- The two BAD forms (R170). -/
def isBadForm : Instr → Bool
  | .toRgbRgb _ => false
  | .toRgbHsl _ => false
  | .toRgbBad _ => true
  | .toHslRgb _ => false
  | .toHslHsl _ => false
  | .toHslBad _ => true
  | .crcData _ => false
  | .crcEnd => false
  | .crcCheck _ => false

/-- Can the form read its lanes as the type its tag gives them (R63)? Only a form with tag HSL can fail to. -/
def lanesReadable : Instr → Bool
  | .toRgbRgb _ => true
  | .toRgbHsl lanes => (readHslRow lanes).isSome
  | .toRgbBad _ => true
  | .toHslRgb _ => true
  | .toHslHsl lanes => (readHslRow lanes).isSome
  | .toHslBad _ => true
  | .crcData _ => true
  | .crcEnd => true
  | .crcCheck _ => true

/-- The data byte a command brings into the open message. -/
def messageByte (c : Command) : Option Byte :=
  match decode c with
  | .toRgbRgb _ => none
  | .toRgbHsl _ => none
  | .toRgbBad _ => none
  | .toHslRgb _ => none
  | .toHslHsl _ => none
  | .toHslBad _ => none
  | .crcData b => some b
  | .crcEnd => none
  | .crcCheck _ => none

/-! ### Legal responses and the invariant -/

/-- Do the lanes carry an HSL row, in either format? -/
def carriesHsl : ResponseLanes → Bool
  | .absent => false
  | .rgb _ => false
  | .hsl _ => true
  | .wire _ _ _ => true

/-- Do the lanes carry an RGB row? -/
def carriesRgb : ResponseLanes → Bool
  | .absent => false
  | .rgb _ => true
  | .hsl _ => false
  | .wire _ _ _ => false

/-- The responses that exist: the values of R71, with lanes exactly where R70 has them. -/
def legalResponse (r : Response) : Prop :=
  (r.rw = 0x000#12 ∧ r.lanes = .absent) ∨
  (r.rw = 0x001#12 ∧ carriesRgb r.lanes = true) ∨
  (r.rw = 0x005#12 ∧ carriesHsl r.lanes = true) ∨
  (r.rw &&& 0x00F#12 = 0x002#12 ∧ r.lanes = .absent) ∨
  ((r.rw = 0x01B#12 ∨ r.rw = 0x01F#12) ∧ r.lanes = .absent)

/-- The invariant of a block that has been reset: `crc_r` has a value and every response delivered was a legal one. -/
def State.Inv (s : State) : Prop := s.crcR.isSome = true ∧ ∀ r ∈ s.responses, legalResponse r

/-! ### Outcomes with one field set -/

/-- The outcome, with `crc_r` of the next state put to `v`. -/
def outcomeWithCrc (v : Option Byte) : Host.Outcome State Fault Refusal → Host.Outcome State Fault Refusal
  | .next t => .next { t with crcR := v }
  | .fault f => .fault f
  | .refused r => .refused r

/-- The outcome, with responses put before those of the next state. -/
def outcomeAfter (earlier : List Response) : Host.Outcome State Fault Refusal → Host.Outcome State Fault Refusal
  | .next t => .next { t with responses := earlier ++ t.responses }
  | .fault f => .fault f
  | .refused r => .refused r

/-! ### Runs -/

/-- `n` steps, stopping at the first fault or refusal. -/
def steps : Nat → State → Host.Outcome State Fault Refusal
  | 0, s => .next s
  | n + 1, s =>
    match step s with
    | .next t => steps n t
    | .fault f => .fault f
    | .refused r => .refused r

/-- The state in which the host has issued the commands and then whatever waited before. -/
def issueCommands (cs : List Command) (s : State) : State :=
  { s with commandPort := cs.map .command ++ s.commandPort }

end Sys2Proof.Machine
end

