-- ==== Sys2Proof/Certificates/Slice0/Obligations.lean ====
section
/-! DEFINITION. Certificates/Slice0/Obligations.lean: the statements for the provers. Each docstring names the rule or
section of spec/ it formalises; a rule that the spec itself marks "[derived: ...]" is an inference of the spec's, and
the docstring says so. A conclusion `exec i s = .next { s with ... }` names the whole next state: the result and the
frame at once. -/

open Sys2Proof Sys2Proof.Machine

/-! ### Encoding -/

/-- R61, R62: every operand of every well-formed command form comes back from its own command. -/
def Obligations.DecodeOfEncodeIsTheInstruction : Prop :=
  ∀ i : Instr, WellFormed i → decode (encode i) = i

/-- R62 ("Every 12-bit value of `cw` selects exactly one of them", marked [derived] there) and R67: decoding is total,
gives a well-formed form, and the row of the opcode map that the word selects is the row of that form and no other. -/
def Obligations.EveryWordSelectsOnlyTheRowOfItsForm : Prop :=
  ∀ c : Command, WellFormed (decode c) ∧
    ∀ f : Form, ((opcodeRow f).selectedBy c.cw = true ↔ f = formOf (decode c))

/-- R66: the block's behaviour does not depend on the bits marked `x` nor on the lanes of the forms that do not use
them, and the assembler writes zeros there. -/
def Obligations.IgnoredPlacesDoNotMatter : Prop :=
  (∀ (c d : Command) (s : State), agreeWhereUsed c d = true →
    step (issueFirst (.command c) s) = step (issueFirst (.command d) s)) ∧
  (∀ (line : AsmLine) (c : Command), assemble line = some c →
    c.cw &&& ~~~(opcodeRow (formOf (decode c))).used = 0#12 ∧
    ((opcodeRow (formOf (decode c))).usesLanes = false → c.lanes = Lanes.zero))

/-- R61, R62 and the words of 95_test_vectors.md sections 2.3 and 7: words read bit by bit. -/
def Obligations.WordsOfTheSpecDecode : Prop :=
  ∀ lanes : Lanes,
    decode ⟨0x000#12, lanes⟩ = .toRgbRgb lanes ∧ decode ⟨0x004#12, lanes⟩ = .toRgbHsl lanes ∧
    decode ⟨0x00C#12, lanes⟩ = .toRgbBad 0b11#2 ∧ decode ⟨0xFF8#12, lanes⟩ = .toRgbBad 0b10#2 ∧
    decode ⟨0xA51#12, lanes⟩ = .toHslRgb lanes ∧ decode ⟨0x005#12, lanes⟩ = .toHslHsl lanes ∧
    decode ⟨0x00D#12, lanes⟩ = .toHslBad 0b11#2 ∧ decode ⟨0xFFE#12, lanes⟩ = .crcData 0xFF#8 ∧
    decode ⟨0xABB#12, lanes⟩ = .crcEnd ∧ decode ⟨0x537#12, lanes⟩ = .crcCheck 0x53#8

/-- R72: the assembler refuses an `rgb` channel outside 0 to 255 and otherwise writes a command of the form that the
operand constructor selects, with the operands as written. -/
def Obligations.AssemblerSelectsTheFormByItsOperand : Prop :=
  (∀ r g b : ℤ, (0 ≤ r ∧ r ≤ 255) ∧ (0 ≤ g ∧ g ≤ 255) ∧ (0 ≤ b ∧ b ≤ 255) →
    (assemble (.toRgbRgb r g b)).map decode =
      some (.toRgbRgb (Lanes.ofRgb ⟨BitVec.ofInt 8 r, BitVec.ofInt 8 g, BitVec.ofInt 8 b⟩)) ∧
    (assemble (.toHslRgb r g b)).map decode =
      some (.toHslRgb (Lanes.ofRgb ⟨BitVec.ofInt 8 r, BitVec.ofInt 8 g, BitVec.ofInt 8 b⟩))) ∧
  (∀ r g b : ℤ, ¬((0 ≤ r ∧ r ≤ 255) ∧ (0 ≤ g ∧ g ≤ 255) ∧ (0 ≤ b ∧ b ≤ 255)) →
    assemble (.toRgbRgb r g b) = none ∧ assemble (.toHslRgb r g b) = none) ∧
  (∀ h s l : RealNum,
    (assemble (.toRgbHsl h s l)).map decode = some (.toRgbHsl (Lanes.ofHsl ⟨h, s, l⟩)) ∧
    (assemble (.toHslHsl h s l)).map decode = some (.toHslHsl (Lanes.ofHsl ⟨h, s, l⟩))) ∧
  (∀ t : ℤ, t = 2 ∨ t = 3 →
    (assemble (.toRgbRaw t)).map decode = some (.toRgbBad (BitVec.ofInt 2 t)) ∧
    (assemble (.toHslRaw t)).map decode = some (.toHslBad (BitVec.ofInt 2 t))) ∧
  (∀ b : ℤ, 0 ≤ b ∧ b ≤ 255 →
    (assemble (.crcData b)).map decode = some (.crcData (BitVec.ofInt 8 b)) ∧
    (assemble (.crcCheck b)).map decode = some (.crcCheck (BitVec.ofInt 8 b))) ∧
  (assemble .crcEnd).map decode = some .crcEnd

/-! ### Steps, reset and outcomes -/

/-- R46, R47: a step accepts the host's oldest command and is the execution of the form it decodes to. -/
def Obligations.StepRunsTheDecodedCommand : Prop :=
  ∀ (s : State) (c : Command) (rest : List HostEvent), s.commandPort = .command c :: rest →
    WellFormed (decode c) ∧ step s = exec (decode c) { s with commandPort := rest }

/-- R190: the whole effect of reset, from every state, before the first reset too: `crc_r` is 0x00, and no response is
given. -/
def Obligations.ResetEventClearsTheRegisterOnly : Prop :=
  ∀ (s : State) (rest : List HostEvent), s.commandPort = .reset :: rest →
    step s = .next { s with crcR := some 0x00#8, commandPort := rest }

/-- The model's choice (log entry 3): with nothing issued the block waits, and nothing changes. -/
def Obligations.IdleStepChangesNothing : Prop :=
  ∀ s : State, s.commandPort = [] → step s = .next s

/-- R34: the state after reset; before it `crc_r` has no value (R35). -/
def Obligations.StateAfterReset : Prop :=
  State.reset.crcR = some 0x00#8 ∧ State.reset.commandPort = [] ∧ State.reset.responses = [] ∧
    State.powerOn.crcR = none ∧
    step (issueFirst .reset State.powerOn) = .next State.reset

/-- R42: every accepted command takes itself off the port and gives exactly one response, after all earlier ones;
reset and waiting give none. -/
def Obligations.OneResponsePerAcceptedCommand : Prop :=
  ∀ s t : State, step s = .next t →
    (∀ (c : Command) (rest : List HostEvent), s.commandPort = .command c :: rest →
      t.commandPort = rest ∧ ∃ r : Response, t.responses = s.responses ++ [r]) ∧
    (∀ rest : List HostEvent, s.commandPort = .reset :: rest →
      t.commandPort = rest ∧ t.responses = s.responses) ∧
    (s.commandPort = [] → t.commandPort = [] ∧ t.responses = s.responses)

/-- R181 and R35: exactly when a form ends in a next state, in a fault and in a refusal. -/
def Obligations.OutcomesOfAForm : Prop :=
  ∀ (i : Instr) (s : State),
    ((∃ t : State, exec i s = .next t) ↔
      (isCrcForm i = true → s.crcR.isSome = true) ∧ lanesReadable i = true) ∧
    (∀ f : Fault, exec i s = .fault f ↔ f = .crcBeforeReset ∧ isCrcForm i = true ∧ s.crcR = none) ∧
    (∀ r : Refusal, exec i s = .refused r ↔ r = .laneNotFinite ∧ lanesReadable i = false)

/-- R70, R71 and R20: every step keeps the invariant that `crc_r` has a value and that every response is one of the
values of R71, with lanes exactly where R70 has them. -/
def Obligations.StepKeepsTheInvariant : Prop :=
  ∀ s t : State, State.Inv s → step s = .next t → State.Inv t

/-- The invariant holds after reset. -/
def Obligations.ResetMeetsTheInvariant : Prop := State.Inv State.reset

/-! ### Lanes -/

/-- R63: how the lanes are read. In the default format a form with tag RGB reads the `u8`, a form with tag HSL the
Real; in a configured finite format the `u8` is bits 7 to 0 and the row is read when all three patterns decode. -/
def Obligations.LanesAreReadAsTheTagSays : Prop :=
  (∀ l0 l1 l2 : ExactLane,
    readRgbRow (.exact l0 l1 l2) = ⟨l0.u8, l1.u8, l2.u8⟩ ∧
    readHslRow (.exact l0 l1 l2) = some ⟨l0.real, l1.real, l2.real⟩) ∧
  (∀ p0 p1 p2 : LanePattern,
    ((readRgbRow (.wire p0 p1 p2)).r.toNat = p0.toNat % 256 ∧
      (readRgbRow (.wire p0 p1 p2)).g.toNat = p1.toNat % 256 ∧
      (readRgbRow (.wire p0 p1 p2)).b.toNat = p2.toNat % 256) ∧
    ∀ h s l : RealNum, readHslRow (.wire p0 p1 p2) = some ⟨h, s, l⟩ ↔
      Config.numDecode p0 = some h ∧ Config.numDecode p1 = some s ∧ Config.numDecode p2 = some l)

/-- R63, R124, R181 and decisions D19, D20, in the model's form of the OPEN parameter NUM (log entries 6 and 8): in a
configured finite format a row that decodes is converted and its result encoded, or returned as the same patterns; a
row that does not is refused by the two forms that read it. -/
def Obligations.FormsOnFiniteFormatLanes : Prop :=
  ∀ (p0 p1 p2 : LanePattern) (s : State),
    (exec (.toHslRgb (.wire p0 p1 p2)) s =
      let row := rgbToHslRow (readRgbRow (.wire p0 p1 p2))
      .next { s with responses := s.responses ++
        [⟨0x005#12, .wire (Config.numEncode row.h) (Config.numEncode row.s) (Config.numEncode row.l)⟩] }) ∧
    match Config.numDecode p0, Config.numDecode p1, Config.numDecode p2 with
    | some h, some sat, some l =>
      exec (.toRgbHsl (.wire p0 p1 p2)) s =
        .next { s with responses := s.responses ++ [⟨0x001#12, .rgb (hslToRgbRow ⟨h, sat, l⟩)⟩] } ∧
      exec (.toHslHsl (.wire p0 p1 p2)) s =
        .next { s with responses := s.responses ++ [⟨0x005#12, .wire p0 p1 p2⟩] }
    | _, _, _ =>
      exec (.toRgbHsl (.wire p0 p1 p2)) s = .refused .laneNotFinite ∧
      exec (.toHslHsl (.wire p0 p1 p2)) s = .refused .laneNotFinite

/-! ### The COLOR forms -/

/-- R120: `TO_RGB.RGB` returns the row bit for bit and changes nothing else, for every lane format. -/
def Obligations.ToRgbOfRgbReturnsTheRow : Prop :=
  (∀ c : Command, c.cw &&& 0x00F#12 = 0x000#12 → decode c = .toRgbRgb c.lanes) ∧
  (∀ (lanes : Lanes) (s : State), exec (.toRgbRgb lanes) s =
    .next { s with responses := s.responses ++ [⟨0x001#12, .rgb (readRgbRow lanes)⟩] }) ∧
  (∀ row : RgbRow, readRgbRow (Lanes.ofRgb row) = row)

/-- R121: `TO_RGB.HSL` answers the datapath's row and changes nothing else; its corner cases and its example. -/
def Obligations.ToRgbOfHslRunsTheDatapath : Prop :=
  (∀ c : Command, c.cw &&& 0x00F#12 = 0x004#12 → decode c = .toRgbHsl c.lanes) ∧
  (∀ (l0 l1 l2 : ExactLane) (s : State), exec (.toRgbHsl (.exact l0 l1 l2)) s =
    .next { s with responses := s.responses ++
      [⟨0x001#12, .rgb (hslToRgbRow ⟨l0.real, l1.real, l2.real⟩)⟩] }) ∧
  (∀ H L : RealNum, hslToRgbRow ⟨H, 0, L⟩ = ⟨castU8 (L * 255), castU8 (L * 255), castU8 (L * 255)⟩) ∧
  (∀ H S : RealNum,
    hslToRgbRow ⟨H, S, 0⟩ = ⟨0#8, 0#8, 0#8⟩ ∧ hslToRgbRow ⟨H, S, 1⟩ = ⟨255#8, 255#8, 255#8⟩) ∧
  (∀ (H S L : RealNum) (n : ℤ), hslToRgbRow ⟨H + 360 * (n : RealNum), S, L⟩ = hslToRgbRow ⟨H, S, L⟩) ∧
  hslToRgbRow ⟨210, 1 / 2, 1 / 4⟩ = ⟨31#8, 63#8, 95#8⟩

/-- R122 and R125: a BAD form always gives the error response, whatever `crc_r` holds, and changes nothing else. -/
def Obligations.BadFormsRaiseUnsupportedRepresentation : Prop :=
  (∀ c : Command, c.cw &&& 0x00B#12 = 0x008#12 → decode c = .toRgbBad (c.cw.extractLsb' 2 2)) ∧
  (∀ c : Command, c.cw &&& 0x00B#12 = 0x009#12 → decode c = .toHslBad (c.cw.extractLsb' 2 2)) ∧
  ∀ s : State,
    exec (.toRgbBad 0b10#2) s = .next { s with responses := s.responses ++ [⟨0x01B#12, .absent⟩] } ∧
    exec (.toRgbBad 0b11#2) s = .next { s with responses := s.responses ++ [⟨0x01F#12, .absent⟩] } ∧
    exec (.toHslBad 0b10#2) s = .next { s with responses := s.responses ++ [⟨0x01B#12, .absent⟩] } ∧
    exec (.toHslBad 0b11#2) s = .next { s with responses := s.responses ++ [⟨0x01F#12, .absent⟩] }

/-- R170: the error response (kind ERR, code 0x01, the offending tag bits) is given by every well-formed BAD form and by
no other form, ever. -/
def Obligations.OnlyBadFormsRaiseTheException : Prop :=
  (∀ (i : Instr) (s : State), isBadForm i = true → ∃ t : State, exec i s = .next t) ∧
  ∀ (i : Instr) (s t : State), WellFormed i → exec i s = .next t →
    ∃ r : Response, t.responses = s.responses ++ [r] ∧
      (isBadForm i = true ↔ r.rw &&& 0x003#12 = 0x003#12) ∧
      (∀ aux : BitVec 2, i = .toRgbBad aux ∨ i = .toHslBad aux →
        r = ⟨(0x01#8 : BitVec 8) ++ aux ++ 0b11#2, .absent⟩)

/-- R175, R176: the error is not sticky: what any form does after it is what it does without it, but for the responses
already given. -/
def Obligations.ErrorIsNotSticky : Prop :=
  ∀ (bad : Instr) (s t : State), isBadForm bad = true → exec bad s = .next t →
    t.crcR = s.crcR ∧ t.commandPort = s.commandPort ∧
    ∀ i : Instr,
      exec i s = outcomeAfter s.responses (exec i { s with responses := [] }) ∧
      exec i t = outcomeAfter t.responses (exec i { s with responses := [] })

/-- R123: `TO_HSL.RGB` answers the datapath's row and changes nothing else; its corner cases and its example. -/
def Obligations.ToHslOfRgbRunsTheDatapath : Prop :=
  (∀ c : Command, c.cw &&& 0x00F#12 = 0x001#12 → decode c = .toHslRgb c.lanes) ∧
  (∀ (l0 l1 l2 : ExactLane) (s : State), exec (.toHslRgb (.exact l0 l1 l2)) s =
    .next { s with responses := s.responses ++ [⟨0x005#12, .hsl (rgbToHslRow ⟨l0.u8, l1.u8, l2.u8⟩)⟩] }) ∧
  rgbToHslRow ⟨0#8, 0#8, 0#8⟩ = ⟨0, -1, 1 / 1000000⟩ ∧
  rgbToHslRow ⟨255#8, 255#8, 255#8⟩ = ⟨0, 1, 999999 / 1000000⟩ ∧
  (∀ n : Byte, n ≠ 0#8 → n ≠ 255#8 → rgbToHslRow ⟨n, n, n⟩ = ⟨0, 0, (n.toNat : RealNum) / 255⟩) ∧
  (∀ r g b : Byte, g < b → b ≤ r →
    300 ≤ (rgbToHslRow ⟨r, g, b⟩).h ∧ (rgbToHslRow ⟨r, g, b⟩).h < 360) ∧
  rgbToHslRow ⟨255#8, 0#8, 1#8⟩ = ⟨6116 / 17, 1, 1 / 2⟩ ∧
  rgbToHslRow ⟨64#8, 64#8, 128#8⟩ = ⟨240, 1 / 3, 32 / 85⟩

/-- R124: `TO_HSL.HSL` returns the row as it came, any values, and changes nothing else. That it is refused on lanes of
a configured finite format that do not decode is not R124's but R181's (decision D19), read so for the identity form in
log entry 8, in the model's form of the open format (log entry 6). -/
def Obligations.ToHslOfHslReturnsTheRow : Prop :=
  (∀ c : Command, c.cw &&& 0x00F#12 = 0x005#12 → decode c = .toHslHsl c.lanes) ∧
  (∀ (l0 l1 l2 : ExactLane) (s : State), exec (.toHslHsl (.exact l0 l1 l2)) s =
    .next { s with responses := s.responses ++ [⟨0x005#12, .hsl ⟨l0.real, l1.real, l2.real⟩⟩] }) ∧
  (∀ (p0 p1 p2 : LanePattern) (s : State), exec (.toHslHsl (.wire p0 p1 p2)) s =
    if (readHslRow (.wire p0 p1 p2)).isSome = true then
      .next { s with responses := s.responses ++ [⟨0x005#12, .wire p0 p1 p2⟩] }
    else .refused .laneNotFinite)

/-- R50 ([derived] there): a COLOR form does the same whatever `crc_r` holds, before the first reset too (R35), and
leaves it as it was. -/
def Obligations.ColorFormsDoNotTouchTheRegister : Prop :=
  ∀ (i : Instr) (s : State) (v : Option Byte), isCrcForm i = false →
    exec i { s with crcR := v } = outcomeWithCrc v (exec i s) ∧
    ∀ t : State, exec i s = .next t → t.crcR = s.crcR

/-! ### The HSL-to-RGB datapath -/

/-- R101: the factor of the chroma stage. -/
def Obligations.ChromaStageOfHsl : Prop :=
  ∀ S L : RealNum, chromaOfHsl S L = (1 - |2 * L - 1|) * S ∧
    (0 ≤ L → L ≤ 1 → 0 ≤ 1 - |2 * L - 1| ∧ 1 - |2 * L - 1| ≤ 1) ∧
    chromaOfHsl S (1 / 2) = S ∧ chromaOfHsl S 0 = 0 ∧ chromaOfHsl S 1 = 0

/-- R102 and R103: the hue in units of a sector lies in [0,6), the sector is its floor, and a hue on a boundary belongs
to the sector that starts there. That the sector is at most 5 R103 marks "[derived: from rule R102, hp in [0,6)]". -/
def Obligations.SectorOfAHue : Prop :=
  (∀ H : RealNum,
    (huePrime H).val = fmod H 360 / 60 ∧ 0 ≤ (huePrime H).val ∧ (huePrime H).val < 6 ∧
    ((sector (huePrime H)).val : ℤ) = ⌊fmod H 360 / 60⌋ ∧ (sector (huePrime H)).val ≤ 5) ∧
  (∀ n : ℤ, ((sector (huePrime (60 * (n : RealNum)))).val : ℤ) = n % 6)

/-- R104: the factor of the x stage: in [0,1], 0 at even integers, 1 at odd ones, linear in between. -/
def Obligations.SecondComponentStage : Prop :=
  (∀ c hp : RealNum, secondComponent c hp = c * (1 - |fmod hp 2 - 1|) ∧
    0 ≤ 1 - |fmod hp 2 - 1| ∧ 1 - |fmod hp 2 - 1| ≤ 1 ∧
    (fmod hp 2 ≤ 1 → secondComponent c hp = c * fmod hp 2) ∧
    (1 ≤ fmod hp 2 → secondComponent c hp = c * (2 - fmod hp 2))) ∧
  (∀ (c : RealNum) (n : ℤ),
    secondComponent c (2 * (n : RealNum)) = 0 ∧ secondComponent c (2 * (n : RealNum) + 1) = c)

/-- R108 (decision D12, log entry 9): the cast drops the fraction toward zero and keeps the low 8 bits; the rule's own
examples. -/
def Obligations.CastKeepsTheLowByte : Prop :=
  (∀ v : RealNum, 0 ≤ v → ((castU8 v).toNat : ℤ) = ⌊v⌋ % 256) ∧
  (∀ v : RealNum, v < 0 → ((castU8 v).toNat : ℤ) = (-⌊-v⌋) % 256) ∧
  (∀ v : RealNum, 0 ≤ v → v < 256 → ((castU8 v).toNat : ℤ) = ⌊v⌋) ∧
  castU8 (25499949 / 100000) = 254#8 ∧ castU8 (255 / 2) = 127#8 ∧ castU8 (765 / 2) = 126#8 ∧
  castU8 (-255 / 2) = 129#8 ∧ castU8 510 = 254#8 ∧ castU8 (-1) = 255#8

/-- R109: the whole HSL-to-RGB datapath, the rows of R106 written out. -/
def Obligations.HslToRgbDatapath : Prop :=
  ∀ H S L : RealNum,
    let c := (1 - |2 * L - 1|) * S
    let hp := fmod H 360 / 60
    let x := c * (1 - |fmod hp 2 - 1|)
    let m := L - c / 2
    let row := fun p0 p1 p2 : RealNum =>
      (⟨castU8 ((p0 + m) * 255), castU8 ((p1 + m) * 255), castU8 ((p2 + m) * 255)⟩ : RgbRow)
    (0 ≤ ⌊hp⌋ ∧ ⌊hp⌋ ≤ 5) ∧
    hslToRgbRow ⟨H, S, L⟩ =
      if ⌊hp⌋ = 0 then row c x 0
      else if ⌊hp⌋ = 1 then row x c 0
      else if ⌊hp⌋ = 2 then row 0 c x
      else if ⌊hp⌋ = 3 then row 0 x c
      else if ⌊hp⌋ = 4 then row x 0 c
      else row c 0 x

/-- R134 ([derived] there): saturation and lightness in [0,1] give scaled channels in [0,255], on which the cast is the
floor. -/
def Obligations.InRangeHslGivesInRangeCasts : Prop :=
  ∀ H S L : RealNum, 0 ≤ S → S ≤ 1 → 0 ≤ L → L ≤ 1 →
    let c := chromaOfHsl S L
    let x := secondComponent c (huePrime H).val
    let m := lightnessOffset c L
    let p := sectorTriple c x (sector (huePrime H))
    let inUnit := fun v : RealNum => 0 ≤ v ∧ v ≤ 1
    (0 ≤ c ∧ c ≤ 1 - |2 * L - 1|) ∧ 0 ≤ m ∧ c + m ≤ 1 ∧ (0 ≤ x ∧ x ≤ c) ∧
    (inUnit (p.1 + m) ∧ inUnit (p.2.1 + m) ∧ inUnit (p.2.2 + m)) ∧
    ((hslToRgbRow ⟨H, S, L⟩).r.toNat : ℤ) = ⌊(p.1 + m) * 255⌋ ∧
    ((hslToRgbRow ⟨H, S, L⟩).g.toNat : ℤ) = ⌊(p.2.1 + m) * 255⌋ ∧
    ((hslToRgbRow ⟨H, S, L⟩).b.toNat : ℤ) = ⌊(p.2.2 + m) * 255⌋

/-! ### The RGB-to-HSL datapath -/

/-- R118: the whole RGB-to-HSL datapath. -/
def Obligations.RgbToHslDatapath : Prop :=
  ∀ r g b : Byte,
    let Rn : RealNum := (r.toNat : RealNum) / 255
    let Gn : RealNum := (g.toNat : RealNum) / 255
    let Bn : RealNum := (b.toNat : RealNum) / 255
    let cmin := min (min Rn Gn) Bn
    let cmax := max (max Rn Gn) Bn
    let l0 := (cmax + cmin) / 2
    let chroma := cmax - cmin
    let L := if |l0| ≤ 1 / 1000000 then l0 + 1 / 1000000
      else if |l0 - 1| ≤ 1 / 1000000 then l0 - 1 / 1000000 else l0
    let S := 2 * (cmax - L) / (1 - |2 * L - 1|)
    let H := if |chroma| ≤ 1 / 1000000 then 0
      else if Rn = cmax then 60 * fmod ((Gn - Bn) / chroma) 6
      else if Gn = cmax then 60 * ((Bn - Rn) / chroma + 2)
      else 60 * ((Rn - Gn) / chroma + 4)
    rgbToHslRow ⟨r, g, b⟩ = ⟨H, S, L⟩

/-- R130 ([derived] there): for every tolerance strictly between 0 and 1/510, strict or not, the guards fire exactly at
black, at white and at the greys. -/
def Obligations.GuardsFireOnlyAtTheExtremes : Prop :=
  ∀ (row : RgbRow) (tol : RealNum), 0 < tol → tol < 1 / 510 →
    ((|rawLightness row - 0| ≤ tol ↔ row = ⟨0#8, 0#8, 0#8⟩) ∧
      (|rawLightness row - 0| < tol ↔ row = ⟨0#8, 0#8, 0#8⟩)) ∧
    ((|rawLightness row - 1| ≤ tol ↔ row = ⟨255#8, 255#8, 255#8⟩) ∧
      (|rawLightness row - 1| < tol ↔ row = ⟨255#8, 255#8, 255#8⟩)) ∧
    ((|chromaOfRgb row - 0| ≤ tol ↔ row.r = row.g ∧ row.g = row.b) ∧
      (|chromaOfRgb row - 0| < tol ↔ row.r = row.g ∧ row.g = row.b))

/-- R131 ([derived] there): lightness and saturation in closed form, over the integers `mx` and `mn`. -/
def Obligations.RgbToHslClosedForm : Prop :=
  ∀ r g b : Byte,
    let mx := max (max r.toNat g.toNat) b.toNat
    let mn := min (min r.toNat g.toNat) b.toNat
    let hsl := rgbToHslRow ⟨r, g, b⟩
    if mx = 0 then hsl = ⟨0, -1, 1 / 1000000⟩
    else if mn = 255 then hsl = ⟨0, 1, 999999 / 1000000⟩
    else
      hsl.l = ((mx : RealNum) + mn) / 510 ∧
      hsl.s = ((mx : RealNum) - mn) / (255 - |(mx : RealNum) + mn - 255|) ∧
      hsl.h =
        if mx = mn then 0
        else if r.toNat = mx then 60 * fmod (((g.toNat : RealNum) - b.toNat) / ((mx : RealNum) - mn)) 6
        else if g.toNat = mx then 60 * (((b.toNat : RealNum) - r.toNat) / ((mx : RealNum) - mn) + 2)
        else 60 * (((r.toNat : RealNum) - g.toNat) / ((mx : RealNum) - mn) + 4)

/-- R131 ([derived] there): the ranges of the three channels over all rows. -/
def Obligations.RgbToHslRanges : Prop :=
  ∀ row : RgbRow,
    let hsl := rgbToHslRow row
    (0 ≤ hsl.h ∧ hsl.h < 360) ∧ (0 < hsl.l ∧ hsl.l < 1) ∧
    (row = ⟨0#8, 0#8, 0#8⟩ → hsl.s = -1) ∧
    (row ≠ ⟨0#8, 0#8, 0#8⟩ → 0 ≤ hsl.s ∧ hsl.s ≤ 1) ∧
    (¬(row.r = row.g ∧ row.g = row.b) → 0 < hsl.s)

/-- R132 ([derived] there): whichever channel that attains the maximum is selected, the hue is the same. -/
def Obligations.TieOrderCannotBeObserved : Prop :=
  ∀ (row : RgbRow) (ch : Channel), ¬(row.r = row.g ∧ row.g = row.b) → channelValue row ch = cMax row →
    hueOfChannel row ch = (rgbToHslRow row).h

/-- R133 ([derived] there): no divisor of the RGB-to-HSL datapath is zero. -/
def Obligations.NoDivisionByZeroOfRgb : Prop :=
  ∀ row : RgbRow,
    let l := guardLightness (rawLightness row)
    (1 / 1000000 ≤ l ∧ l ≤ 1 - 1 / 1000000) ∧
    (if row = ⟨0#8, 0#8, 0#8⟩ ∨ row = ⟨255#8, 255#8, 255#8⟩ then saturationDivisor l = 2 / 1000000
      else 1 / 255 ≤ saturationDivisor l) ∧
    (¬(|chromaOfRgb row - 0| ≤ Config.eps) → 1 / 255 ≤ chromaOfRgb row)

/-! ### Both datapaths -/

/-- R135 ([derived] there): the round trip is exact for every row but white. -/
def Obligations.RoundTripReturnsEveryRowButWhite : Prop :=
  (∀ row : RgbRow, row ≠ ⟨255#8, 255#8, 255#8⟩ → hslToRgbRow (rgbToHslRow row) = row) ∧
  hslToRgbRow (rgbToHslRow ⟨255#8, 255#8, 255#8⟩) = ⟨255#8, 254#8, 254#8⟩

/-- R138 ([derived] there): the three primaries are exact in both directions. -/
def Obligations.PrimariesAreExact : Prop :=
  (rgbToHslRow ⟨255#8, 0#8, 0#8⟩ = ⟨0, 1, 1 / 2⟩ ∧ hslToRgbRow ⟨0, 1, 1 / 2⟩ = ⟨255#8, 0#8, 0#8⟩) ∧
  (rgbToHslRow ⟨0#8, 255#8, 0#8⟩ = ⟨120, 1, 1 / 2⟩ ∧ hslToRgbRow ⟨120, 1, 1 / 2⟩ = ⟨0#8, 255#8, 0#8⟩) ∧
  (rgbToHslRow ⟨0#8, 0#8, 255#8⟩ = ⟨240, 1, 1 / 2⟩ ∧ hslToRgbRow ⟨240, 1, 1 / 2⟩ = ⟨0#8, 0#8, 255#8⟩)

/-- R126 ([derived] there) and R73: a batch of N rows, run as N commands, gives N rows in the same order, each the
single-row conversion of its own row, and leaves `crc_r` as it was. -/
def Obligations.BatchesConvertRowByRow : Prop :=
  ∀ s : State,
    (∀ rows : List RgbRow,
      steps rows.length (issueCommands (callBatch callRgbToHsl rows) s) =
        .next { s with responses := s.responses ++ rows.map fun row => ⟨0x005#12, .hsl (rgbToHslRow row)⟩ } ∧
      steps rows.length (issueCommands (callBatch callRgbToRgb rows) s) =
        .next { s with responses := s.responses ++ rows.map fun row => ⟨0x001#12, .rgb row⟩ }) ∧
    (∀ rows : List HslRow,
      steps rows.length (issueCommands (callBatch callHslToRgb rows) s) =
        .next { s with responses := s.responses ++ rows.map fun row => ⟨0x001#12, .rgb (hslToRgbRow row)⟩ } ∧
      steps rows.length (issueCommands (callBatch callHslToHsl rows) s) =
        .next { s with responses := s.responses ++ rows.map fun row => ⟨0x005#12, .hsl row⟩ })

/-! ### The CRC forms -/

/-- R149: `CRC_DATA` shifts its byte into the register, answers the acknowledge and changes nothing else. -/
def Obligations.CrcDataShiftsAByteIn : Prop :=
  (∀ c : Command, c.cw &&& 0x003#12 = 0x002#12 → decode c = .crcData (c.cw.extractLsb' 4 8)) ∧
  (∀ (b r : Byte) (s : State), s.crcR = some r → exec (.crcData b) s =
    .next { s with crcR := some (lfsrByte r b), responses := s.responses ++ [⟨0x000#12, .absent⟩] }) ∧
  (∀ b : Byte, lfsrByte 0#8 b = b) ∧
  lfsrByte 0x74#8 0x65#8 = 0x3A#8

/-- R150: `CRC_END` shifts the zero pad byte in, answers the result, clears the register and changes nothing else. -/
def Obligations.CrcEndClosesTheMessage : Prop :=
  (∀ c : Command, c.cw &&& 0x007#12 = 0x003#12 → decode c = .crcEnd) ∧
  (∀ (r : Byte) (s : State), s.crcR = some r → exec .crcEnd s =
    .next { s with
      crcR := some 0x00#8
      responses := s.responses ++ [⟨(lfsrByte r 0x00#8).setWidth 12 <<< 4 ||| 0x002#12, .absent⟩] }) ∧
  lfsrByte 0#8 0x00#8 = 0x00#8 ∧ lfsrByte 0x41#8 0x00#8 = 0x53#8

/-- R151: `CRC_CHECK` shifts the check byte in, answers the result, clears the register and changes nothing else. -/
def Obligations.CrcCheckClosesTheMessage : Prop :=
  (∀ c : Command, c.cw &&& 0x007#12 = 0x007#12 → decode c = .crcCheck (c.cw.extractLsb' 4 8)) ∧
  (∀ (k r : Byte) (s : State), s.crcR = some r → exec (.crcCheck k) s =
    .next { s with
      crcR := some 0x00#8
      responses := s.responses ++ [⟨(lfsrByte r k).setWidth 12 <<< 4 ||| 0x002#12, .absent⟩] }) ∧
  (∀ k r : Byte, lfsrByte r k = 0x00#8 ↔ k = lfsrByte r 0x00#8) ∧
  (∀ s : State, exec (.crcCheck 0x00#8) s = exec .crcEnd s) ∧
  (∀ k : Byte, lfsrByte 0x00#8 k = k) ∧
  lfsrByte 0x41#8 0x53#8 = 0x00#8 ∧ lfsrByte 0x41#8 0x55#8 = 0x06#8

/-- R35: before the first reset each CRC form faults and every COLOR form has its full meaning. -/
def Obligations.CrcFormsFaultBeforeTheFirstReset : Prop :=
  ∀ s : State, s.crcR = none →
    (∀ i : Instr, isCrcForm i = true → exec i s = .fault .crcBeforeReset) ∧
    (∀ i : Instr, isCrcForm i = false →
      exec i s = outcomeWithCrc none (exec i { s with crcR := some 0x00#8 }))

/-- R27: no command but the two closing ones tells anything of `crc_r`. -/
def Obligations.OpenMessageIsHidden : Prop :=
  ∀ (i : Instr) (s : State) (v w : Byte), closesMessage i = false →
    outcomeWithCrc none (exec i { s with crcR := some v }) = outcomeWithCrc none (exec i { s with crcR := some w })

/-- R146: the bit step, bit by bit: bit 0 takes the message bit, the others the bit below, and the bit that leaves is
fed back at bits 7, 4, 3, 1 and 0. -/
def Obligations.LfsrBitIsAGaloisShift : Prop :=
  ∀ (s : Byte) (d : Bool) (k : Fin 8),
    (lfsrBit s d).getLsbD k =
      ((if k.val = 0 then d else s.getLsbD (k.val - 1)) ^^
        (s.getLsbD 7 && decide (k.val = 7 ∨ k.val = 4 ∨ k.val = 3 ∨ k.val = 1 ∨ k.val = 0)))

/-- R147 ([derived] there): the byte step is the eight bit steps, most significant bit first. -/
def Obligations.LfsrByteIsEightBitSteps : Prop :=
  ∀ s y : Byte, lfsrByte s y =
    lfsrBit (lfsrBit (lfsrBit (lfsrBit (lfsrBit (lfsrBit (lfsrBit (lfsrBit s
      (y.getLsbD 7)) (y.getLsbD 6)) (y.getLsbD 5)) (y.getLsbD 4)) (y.getLsbD 3)) (y.getLsbD 2)) (y.getLsbD 1)) (y.getLsbD 0)

/-! ### The CRC value -/

/-- R143 and R145: the bytes are expanded, and the last eight bits packed, most significant bit first. -/
def Obligations.BitsRunMostSignificantFirst : Prop :=
  (∀ bytes : List Byte, (expandBits bytes).length = 8 * bytes.length) ∧
  (∀ (bytes : List Byte) (n k : Nat) (y : Byte), bytes[n]? = some y → k < 8 →
    (expandBits bytes)[8 * n + k]? = some (y.getLsbD (7 - k))) ∧
  (∀ (q : List Bool) (k : Nat), q.length = 8 → k < 8 → q[k]? = some ((packBits q).getLsbD (7 - k)))

/-- R144: the division visits the positions 0 to `total - 9` in increasing order; a step whose bit is 1 XORs the nine
pattern bits into the window of nine bits that begins there, in place, and a step whose bit is 0 does nothing. That
after position `i` has been visited its bit is 0, and that at the end every bit before the last eight is 0, R144 marks
"[derived: P[0] = 1]". -/
def Obligations.DivisionXorsThePatternIntoTheWindow : Prop :=
  (∀ bits : List Bool, divideBits bits = (List.range (bits.length - 8)).foldl divideAt bits) ∧
  (∀ (bits : List Bool) (i : Nat), (divideAt bits i).length = bits.length ∧
    (bits[i]? = some false → divideAt bits i = bits) ∧
    (bits[i]? = some true → (divideAt bits i)[i]? = some false ∧
      (∀ (j : Nat) (d b : Bool), [true, true, false, false, true, true, false, true, true][j]? = some d →
        bits[i + j]? = some b → (divideAt bits i)[i + j]? = some (b ^^ d)) ∧
      ∀ n : Nat, n < i ∨ i + 8 < n → (divideAt bits i)[n]? = bits[n]?)) ∧
  (∀ bits : List Bool, (divideBits bits).length = bits.length ∧
    ∀ i : Nat, i + 8 < bits.length → (divideBits bits)[i]? = some false)

/-- R148 ([derived] there): the register, started from 0x00 and given the bytes of the padded message in order, holds
the CRC value that the long division defines. -/
def Obligations.LfsrComputesTheLongDivision : Prop :=
  ∀ (data : List Byte) (check : Option Byte),
    crc8 data check = lfsrBytes 0x00#8 (data ++ [appendedByte check])

/-- R153: the round trip, for every byte sequence. That no other check byte gives zero is R154's, which marks it
"[derived: from rules R140 to R145]"; R153 refers to it for the sense in which its "if and only if" is true. -/
def Obligations.CrcRoundTripIsZero : Prop :=
  ∀ data : List Byte,
    crc8 data (some (crc8 data none)) = 0x00#8 ∧
    ∀ c : Byte, crc8 data (some c) = 0x00#8 → c = crc8 data none

/-- R154 ([derived] there): the check byte is XORed into the CRC value. -/
def Obligations.CheckByteIsXoredIn : Prop :=
  ∀ (data : List Byte) (c : Byte), crc8 data (some c) = crc8 data none ^^^ c

/-- R155 ([derived] there): the empty message. -/
def Obligations.CrcOfTheEmptyMessage : Prop :=
  crc8 [] none = 0x00#8 ∧ ∀ c : Byte, crc8 [] (some c) = c

/-- R157 ([derived] there): leading zero bytes do not matter, an all-zero message has CRC zero, and the CRC is linear. -/
def Obligations.ConsequencesOfTheZeroInitialState : Prop :=
  (∀ (data : List Byte) (check : Option Byte), crc8 (0x00#8 :: data) check = crc8 data check) ∧
  (∀ n : Nat, crc8 (List.replicate n 0x00#8) none = 0x00#8) ∧
  (∀ y : Byte, lfsrBytes 0x00#8 [y] = y) ∧
  (∀ d e : List Byte, d.length = e.length →
    crc8 (List.zipWith (fun a b => a ^^^ b) d e) none = crc8 d none ^^^ crc8 e none)

/-- R159 ([derived] there, for information): the direct form reaches the same value. -/
def Obligations.DirectFormAgrees : Prop :=
  ∀ (data : List Byte) (c : Byte),
    crc8 data none = directCrc data ∧ crc8 data (some c) = directCrc data ^^^ c

/-- R152 ([derived] there): from `crc_r = 0x00`, the data commands of a message with any COLOR commands between them,
then the closing command: the last response is the CRC of the message, whatever stood before or waits after, and
`crc_r` is 0x00 again. -/
def Obligations.MessageGivesItsCrc : Prop :=
  ∀ (s : State) (cs : List Command) (check : Option Byte), s.crcR = some 0x00#8 →
    (∀ c ∈ cs, closesMessage (decode c) = false ∧ lanesReadable (decode c) = true) →
    ∃ given : List Response, given.length = cs.length ∧
      steps (cs.length + 1) (issueCommands (cs ++ [closingCommand check]) s) =
        .next { s with
          crcR := some 0x00#8
          responses := s.responses ++ given ++
            [⟨(crc8 (cs.filterMap messageByte) check).setWidth 12 <<< 4 ||| 0x002#12, .absent⟩] }

/-- R73 with R152 ([derived] there): the library's `crc8` call, expanded into commands and run: an acknowledge for every
data byte, and the result in the last response. -/
def Obligations.LibraryCrcCallReturnsTheCrc : Prop :=
  ∀ (s : State) (data : List Byte) (check : Option Byte), s.crcR = some 0x00#8 →
    steps (data.length + 1) (issueCommands (callCrc8 data check) s) =
      .next { s with
        responses := s.responses ++ List.replicate data.length ⟨0x000#12, .absent⟩ ++
          [⟨(crc8 data check).setWidth 12 <<< 4 ||| 0x002#12, .absent⟩] }
end

