-- ==== Sys2Proof/Laws/Arith.lean ====
section
/-! SUPPORT. Laws/Arith.lean: what the arithmetic functions answer (spec/00_scope.md R13, spec/40_color.md R108). -/

namespace Sys2Proof.Machine

/-- The floored modulus is the one value in [0, n) that differs from `a` by an integer multiple of `n`. -/
theorem fmod_eq_of_mem {a n v : RealNum} (hn : 0 < n) (k : ℤ) (h : a = n * k + v) (h0 : 0 ≤ v) (h1 : v < n) :
    fmod a n = v := by
  have hk : ⌊a / n⌋ = k := by
    rw [Int.floor_eq_iff, le_div_iff₀ hn, div_lt_iff₀ hn]
    constructor <;> nlinarith
  rw [fmod, hk, h]
  ring

theorem fmod_of_mem {a n : RealNum} (h0 : 0 ≤ a) (h1 : a < n) : fmod a n = a :=
  fmod_eq_of_mem (lt_of_le_of_lt h0 h1) 0 (by simp) h0 h1

theorem trunc_of_nonneg {a : RealNum} (h : 0 ≤ a) : trunc a = ⌊a⌋ := if_pos h

theorem trunc_of_neg {a : RealNum} (h : a < 0) : trunc a = -⌊-a⌋ := if_neg (not_le.mpr h)

theorem castU8_toInt (v : RealNum) : ((castU8 v).toNat : ℤ) = trunc v % 256 := by
  simp only [castU8, BitVec.toNat_ofInt]
  omega

theorem huePrime_val (H : RealNum) : (huePrime H).val = fmod H 360 / 60 := rfl

theorem sector_val (hp : { hp : RealNum // 0 ≤ hp ∧ hp < 6 }) : ((sector hp).val : ℤ) = ⌊hp.val⌋ :=
  Int.toNat_of_nonneg (Int.floor_nonneg.mpr hp.property.1)

end Sys2Proof.Machine
end

