-- ==== Sys2Proof/Laws/Decode.lean ====
section
/-! SUPPORT. Laws/Decode.lean: the fields of an assembled command word are what it was assembled from
(spec/30_encoding.md R61). -/

namespace Sys2Proof

/-- R61, bit by bit. -/
theorem commandWord_getLsbD (byte : Byte) (aux op : BitVec 2) (k : Nat) :
    (commandWord byte aux op).getLsbD k =
      if k < 2 then op.getLsbD k else if k < 4 then aux.getLsbD (k - 2) else byte.getLsbD (k - 4) := by
  change (byte ++ aux ++ op : BitVec (8 + 2 + 2)).getLsbD k = _
  rw [BitVec.getLsbD_append, BitVec.getLsbD_append, show k - 2 - 2 = k - 4 by omega]
  grind

@[simp] theorem opField_commandWord (byte : Byte) (aux op : BitVec 2) : opField (commandWord byte aux op) = op := by
  refine BitVec.eq_of_getLsbD_eq fun k hk => ?_
  simp [opField, commandWord_getLsbD, hk]

@[simp] theorem auxField_commandWord (byte : Byte) (aux op : BitVec 2) : auxField (commandWord byte aux op) = aux := by
  refine BitVec.eq_of_getLsbD_eq fun k hk => ?_
  simp [auxField, commandWord_getLsbD, hk, show ¬2 + k < 2 by omega, show 2 + k < 4 by omega]

@[simp] theorem byteField_commandWord (byte : Byte) (aux op : BitVec 2) :
    byteField (commandWord byte aux op) = byte := by
  refine BitVec.eq_of_getLsbD_eq fun k hk => ?_
  simp [byteField, commandWord_getLsbD, hk, show ¬4 + k < 2 by omega]

@[simp] theorem hasCheck_commandWord (byte : Byte) (aux op : BitVec 2) :
    hasCheck (commandWord byte aux op) = aux.getLsbD 0 := by
  simp only [hasCheck, commandWord_getLsbD]
  rfl

/-- Every word is put together from its own fields. -/
theorem commandWord_fields (cw : PortWord) : commandWord (byteField cw) (auxField cw) (opField cw) = cw := by
  refine BitVec.eq_of_getLsbD_eq fun k hk => ?_
  simp only [commandWord_getLsbD, opField, auxField, byteField, BitVec.getLsbD_extractLsb']
  split
  · simp [*]
  · split
    · simp [show k - 2 < 2 by omega, show 2 + (k - 2) = k by omega]
    · simp [show k - 4 < 8 by omega, show 4 + (k - 4) = k by omega]

end Sys2Proof
end

