-- ==== Sys2Proof/Laws/Operands.lean ====
section
/-! SUPPORT. Laws/Operands.lean: what the operand operations answer, one lemma a lane format. -/

namespace Sys2Proof.Machine

@[simp] theorem readRgbRow_exact (l0 l1 l2 : ExactLane) : readRgbRow (.exact l0 l1 l2) = ⟨l0.u8, l1.u8, l2.u8⟩ := rfl

@[simp] theorem readRgbRow_wire (p0 p1 p2 : LanePattern) :
    readRgbRow (.wire p0 p1 p2) = ⟨lowByte p0, lowByte p1, lowByte p2⟩ := rfl

@[simp] theorem readHslRow_exact (l0 l1 l2 : ExactLane) :
    readHslRow (.exact l0 l1 l2) = some ⟨l0.real, l1.real, l2.real⟩ := rfl

@[simp] theorem readHslRow_wire (p0 p1 p2 : LanePattern) : readHslRow (.wire p0 p1 p2) = decodePatterns p0 p1 p2 := rfl

@[simp] theorem readRgbRow_ofRgb (row : RgbRow) : readRgbRow (Lanes.ofRgb row) = row := rfl

@[simp] theorem readHslRow_ofHsl (row : HslRow) : readHslRow (Lanes.ofHsl row) = some row := rfl

@[simp] theorem writeHslRow_exact (l0 l1 l2 : ExactLane) (row : HslRow) :
    writeHslRow (.exact l0 l1 l2) row = .hsl row := rfl

@[simp] theorem writeHslRow_wire (p0 p1 p2 : LanePattern) (row : HslRow) :
    writeHslRow (.wire p0 p1 p2) row =
      .wire (Config.numEncode row.h) (Config.numEncode row.s) (Config.numEncode row.l) := rfl

@[simp] theorem echoHslRow_exact (l0 l1 l2 : ExactLane) :
    echoHslRow (.exact l0 l1 l2) = .hsl ⟨l0.real, l1.real, l2.real⟩ := rfl

@[simp] theorem echoHslRow_wire (p0 p1 p2 : LanePattern) : echoHslRow (.wire p0 p1 p2) = .wire p0 p1 p2 := rfl

theorem lowByte_toNat (p : LanePattern) : (lowByte p).toNat = p.toNat % 256 := by
  simp [lowByte]

/-- Three patterns decode to a row exactly when each of them decodes. -/
theorem decodePatterns_eq_some {p0 p1 p2 : LanePattern} {row : HslRow} :
    decodePatterns p0 p1 p2 = some row ↔
      Config.numDecode p0 = some row.h ∧ Config.numDecode p1 = some row.s ∧ Config.numDecode p2 = some row.l := by
  unfold decodePatterns
  rcases row with ⟨h, s, l⟩
  cases Config.numDecode p0 <;> cases Config.numDecode p1 <;> cases Config.numDecode p2 <;> simp

end Sys2Proof.Machine
end

