-- ==== Sys2Proof/Laws/State.lean ====
section
/-! SUPPORT. Laws/State.lean: what each update of the state leaves in each field, one lemma a field. -/

namespace Sys2Proof.Machine

@[simp] theorem writeCrc_crcR (v : Byte) (s : State) : (writeCrc v s).crcR = some v := rfl
@[simp] theorem writeCrc_commandPort (v : Byte) (s : State) : (writeCrc v s).commandPort = s.commandPort := rfl
@[simp] theorem writeCrc_responses (v : Byte) (s : State) : (writeCrc v s).responses = s.responses := rfl

@[simp] theorem respond_crcR (r : Response) (s : State) : (respond r s).crcR = s.crcR := rfl
@[simp] theorem respond_commandPort (r : Response) (s : State) : (respond r s).commandPort = s.commandPort := rfl
@[simp] theorem respond_responses (r : Response) (s : State) : (respond r s).responses = s.responses ++ [r] := rfl

@[simp] theorem raiseUnsupported_crcR (aux : BitVec 2) (s : State) : (raiseUnsupported aux s).crcR = s.crcR := rfl
@[simp] theorem raiseUnsupported_commandPort (aux : BitVec 2) (s : State) :
    (raiseUnsupported aux s).commandPort = s.commandPort := rfl
@[simp] theorem raiseUnsupported_responses (aux : BitVec 2) (s : State) :
    (raiseUnsupported aux s).responses = s.responses ++ [errResponse aux] := rfl

@[simp] theorem applyReset_crcR (s : State) : (applyReset s).crcR = some Config.crcInit := rfl
@[simp] theorem applyReset_commandPort (s : State) : (applyReset s).commandPort = s.commandPort := rfl
@[simp] theorem applyReset_responses (s : State) : (applyReset s).responses = s.responses := rfl

@[simp] theorem issueFirst_crcR (e : HostEvent) (s : State) : (issueFirst e s).crcR = s.crcR := rfl
@[simp] theorem issueFirst_commandPort (e : HostEvent) (s : State) :
    (issueFirst e s).commandPort = e :: s.commandPort := rfl
@[simp] theorem issueFirst_responses (e : HostEvent) (s : State) : (issueFirst e s).responses = s.responses := rfl

@[simp] theorem closeMessage_crcR (last r : Byte) (s : State) :
    (closeMessage last r s).crcR = some Config.crcInit := rfl
@[simp] theorem closeMessage_commandPort (last r : Byte) (s : State) :
    (closeMessage last r s).commandPort = s.commandPort := rfl
@[simp] theorem closeMessage_responses (last r : Byte) (s : State) :
    (closeMessage last r s).responses = s.responses ++ [crcResponse (lfsrByte r last)] := rfl

end Sys2Proof.Machine
end

