-- ==== Sys2Proof/Laws/Ops.lean ====
section
/-! SUPPORT. Laws/Ops.lean: one lemma for each shared operation, saying all it does. -/

namespace Sys2Proof.Machine

theorem readCrc_eq (s : State) : readCrc s = s.crcR := rfl

theorem respond_eq (r : Response) (s : State) : respond r s = { s with responses := s.responses ++ [r] } := rfl

theorem raiseUnsupported_eq (aux : BitVec 2) (s : State) :
    raiseUnsupported aux s = { s with responses := s.responses ++ [errResponse aux] } := rfl

theorem applyReset_eq (s : State) : applyReset s = { s with crcR := some 0x00#8 } := rfl

theorem closeMessage_eq (last r : Byte) (s : State) :
    closeMessage last r s =
      { s with crcR := some 0x00#8, responses := s.responses ++ [crcResponse (lfsrByte r last)] } := rfl

/-- With nothing issued there is nothing to accept. -/
theorem acceptEvent_of_nil {s : State} (h : s.commandPort = []) : acceptEvent s = none := by
  unfold acceptEvent
  rw [h]

/-- The oldest event is accepted and leaves the port. -/
theorem acceptEvent_of_cons {s : State} {e : HostEvent} {rest : List HostEvent} (h : s.commandPort = e :: rest) :
    acceptEvent s = some (e, { s with commandPort := rest }) := by
  unfold acceptEvent
  rw [h]

@[simp] theorem acceptEvent_issueFirst (e : HostEvent) (s : State) : acceptEvent (issueFirst e s) = some (e, s) := rfl

/-! The response words of R71. -/

theorem ackResponse_eq : ackResponse = ⟨0x000#12, .absent⟩ := rfl

theorem colorResponse_rgb (lanes : ResponseLanes) : colorResponse tagRgb lanes = ⟨0x001#12, lanes⟩ := rfl

theorem colorResponse_hsl (lanes : ResponseLanes) : colorResponse tagHsl lanes = ⟨0x005#12, lanes⟩ := rfl

theorem errResponse_two : errResponse 0b10#2 = ⟨0x01B#12, .absent⟩ := rfl

theorem errResponse_three : errResponse 0b11#2 = ⟨0x01F#12, .absent⟩ := rfl

theorem crcResponse_eq (v : Byte) : crcResponse v = ⟨v.setWidth 12 <<< 4 ||| 0x002#12, .absent⟩ := by
  revert v
  decide

end Sys2Proof.Machine
end

