-- ==== Sys2Proof/Laws/PerInstr.lean ====
section
/-! SUPPORT. Laws/PerInstr.lean: the per-instruction family EncodedInRow: the encoder's word selects the instruction's
row of R62's opcode map, and has zeros in the bits that row marks as ignored (R66). -/

namespace Sys2Proof.Laws.EncodedInRow

def Statement (i : Instr) : Prop :=
  WellFormed i →
    (opcodeRow (formOf i)).selectedBy (encode i).cw = true ∧ (encode i).cw &&& ~~~(opcodeRow (formOf i)).used = 0#12

theorem toRgbRgb (lanes : Lanes) : Statement (.toRgbRgb lanes) := fun _ =>
  by simp [encode, commandWord, opcodeRow, formOf, OpcodeRow.selectedBy]

theorem toRgbHsl (lanes : Lanes) : Statement (.toRgbHsl lanes) := fun _ =>
  by simp [encode, commandWord, opcodeRow, formOf, OpcodeRow.selectedBy]

theorem toRgbBad (aux : BitVec 2) : Statement (.toRgbBad aux) := by
  revert aux
  unfold Statement
  decide

theorem toHslRgb (lanes : Lanes) : Statement (.toHslRgb lanes) := fun _ =>
  by simp [encode, commandWord, opcodeRow, formOf, OpcodeRow.selectedBy]

theorem toHslHsl (lanes : Lanes) : Statement (.toHslHsl lanes) := fun _ =>
  by simp [encode, commandWord, opcodeRow, formOf, OpcodeRow.selectedBy]

theorem toHslBad (aux : BitVec 2) : Statement (.toHslBad aux) := by
  revert aux
  unfold Statement
  decide

theorem crcData (byte : Byte) : Statement (.crcData byte) := by
  revert byte
  unfold Statement
  decide

theorem crcEnd : Statement .crcEnd := fun _ => ⟨rfl, rfl⟩

theorem crcCheck (check : Byte) : Statement (.crcCheck check) := by
  revert check
  unfold Statement
  decide

end Sys2Proof.Laws.EncodedInRow
end

