-- ==== Sys2Proof/Machine/Flags.lean ====
section
/-! DEFINITION. Machine/Flags.lean: the block has no flag, condition code or predicate and no command writes one
(spec/10_state.md R23), so there is no flag computation to define. -/
end

