-- ==== Sys2Proof/Tests/Slice0.lean ====
section
/-! SUPPORT. Tests/Slice0.lean: the model's own tests. Expected values are those of spec/95_test_vectors.md or of the
rule named. A theorem witness_<obligation> shows a state and operands that meet the hypotheses of that statement. -/

namespace Sys2Proof.Tests

open Sys2Proof.Machine

/-! ### Helpers -/

/-- A block that has been reset, with a remainder in the register. -/
def openMessage (r : Byte) : State := { State.reset with crcR := some r }

/-- The response a step gave, where it gave one. -/
def lastResponse : Host.Outcome State Fault Refusal → Option Response
  | .next t => t.responses.getLast?
  | .fault _ => none
  | .refused _ => none

/-- `crc_r` after a step. -/
def crcAfter : Host.Outcome State Fault Refusal → Option Byte
  | .next t => t.crcR
  | .fault _ => none
  | .refused _ => none

def black : RgbRow := ⟨0#8, 0#8, 0#8⟩
def white : RgbRow := ⟨255#8, 255#8, 255#8⟩

/-! ### WellFormed refuses an ill-formed term for each of its checks -/

theorem test_wellFormed_refuses_toRgbBad_rgb : ¬WellFormed (.toRgbBad 0b00#2) := by decide
theorem test_wellFormed_refuses_toHslBad_hsl : ¬WellFormed (.toHslBad 0b01#2) := by decide

/-! ### Decoding: words written out bit by bit from the encoding column of R62 -/

theorem test_decode_toRgbRgb : decode ⟨0b00000000_00_00#12, Lanes.zero⟩ = .toRgbRgb Lanes.zero := by decide
theorem test_decode_toRgbHsl : decode ⟨0b00000000_01_00#12, Lanes.zero⟩ = .toRgbHsl Lanes.zero := by decide
theorem test_decode_toRgbBad : decode ⟨0b11111111_10_00#12, Lanes.zero⟩ = .toRgbBad 0b10#2 := by decide
theorem test_decode_toHslRgb : decode ⟨0b10100101_00_01#12, Lanes.zero⟩ = .toHslRgb Lanes.zero := by decide
theorem test_decode_toHslHsl : decode ⟨0b00000000_01_01#12, Lanes.zero⟩ = .toHslHsl Lanes.zero := by decide
theorem test_decode_toHslBad : decode ⟨0b00000000_11_01#12, Lanes.zero⟩ = .toHslBad 0b11#2 := by decide
theorem test_decode_crcData : decode ⟨0b01000001_11_10#12, Lanes.zero⟩ = .crcData 0x41#8 := by decide
theorem test_decode_crcEnd : decode ⟨0b10101011_10_11#12, Lanes.zero⟩ = .crcEnd := by decide
theorem test_decode_crcCheck : decode ⟨0b01010011_01_11#12, Lanes.zero⟩ = .crcCheck 0x53#8 := by decide

theorem test_decodeTableWord : decodeTableWord 16 0x412 = some (.crcData 0x41#8) := by decide
theorem test_decodeTableWord_no_command_word : decodeTableWord 16 0x1000 = none := by decide

theorem test_step_runs_the_placed_word :
    step (State.reset.withFetchWord 16 0x001) = exec (.toHslRgb Lanes.zero) State.reset := rfl

/-! ### One step of each form -/

/-- 95_test_vectors.md section 2.3. -/
theorem test_toRgbRgb :
    lastResponse (exec (.toRgbRgb (Lanes.ofRgb ⟨12#8, 34#8, 56#8⟩)) State.reset) =
      some ⟨0x001#12, .rgb ⟨12#8, 34#8, 56#8⟩⟩ := by decide +kernel

/-- 95_test_vectors.md section 2.2: a tiny negative hue lies in sector 5. -/
theorem test_toRgbHsl_tiny_negative_hue :
    lastResponse (exec (.toRgbHsl (Lanes.ofHsl ⟨-1 / 10 ^ 20, 1, 1 / 2⟩)) State.reset) =
      some ⟨0x001#12, .rgb ⟨255#8, 0#8, 0#8⟩⟩ := by decide +kernel

/-- 95_test_vectors.md section 2.2: saturation out of range, the cast wraps. -/
theorem test_toRgbHsl_out_of_range :
    lastResponse (exec (.toRgbHsl (Lanes.ofHsl ⟨0, 2, 1 / 2⟩)) State.reset) =
      some ⟨0x001#12, .rgb ⟨126#8, 129#8, 129#8⟩⟩ := by decide +kernel

/-- 95_test_vectors.md section 2.3. -/
theorem test_toRgbBad :
    lastResponse (exec (.toRgbBad 0b10#2) State.reset) = some ⟨0x01B#12, .absent⟩ := by decide

/-- 95_test_vectors.md section 2.1: green below blue wraps the hue. -/
theorem test_toHslRgb_hue_wraps :
    lastResponse (exec (.toHslRgb (Lanes.ofRgb ⟨255#8, 0#8, 1#8⟩)) State.reset) =
      some ⟨0x005#12, .hsl ⟨6116 / 17, 1, 1 / 2⟩⟩ := by decide +kernel

/-- 95_test_vectors.md section 2.1: black has saturation -1, and the guarded lightness is reported. -/
theorem test_toHslRgb_black :
    lastResponse (exec (.toHslRgb (Lanes.ofRgb black)) State.reset) =
      some ⟨0x005#12, .hsl ⟨0, -1, 1 / 1000000⟩⟩ := by decide +kernel

/-- 95_test_vectors.md section 2.3: no reduction of the hue, no clamp. -/
theorem test_toHslHsl :
    lastResponse (exec (.toHslHsl (Lanes.ofHsl ⟨-30, 2, 1 / 2⟩)) State.reset) =
      some ⟨0x005#12, .hsl ⟨-30, 2, 1 / 2⟩⟩ := by decide +kernel

/-- 95_test_vectors.md program P4: the error leaves the open message. -/
theorem test_toHslBad :
    lastResponse (exec (.toHslBad 0b11#2) (openMessage 0x01#8)) = some ⟨0x01F#12, .absent⟩ ∧
      crcAfter (exec (.toHslBad 0b11#2) (openMessage 0x01#8)) = some 0x01#8 := by decide

/-- 95_test_vectors.md program P2: from 0x74, `CRC_DATA 0x65` leaves 0x3A and answers ACK. -/
theorem test_crcData :
    crcAfter (exec (.crcData 0x65#8) (openMessage 0x74#8)) = some 0x3A#8 ∧
      lastResponse (exec (.crcData 0x65#8) (openMessage 0x74#8)) = some ⟨0x000#12, .absent⟩ := by decide

/-- R150's example. -/
theorem test_crcEnd :
    lastResponse (exec .crcEnd (openMessage 0x41#8)) = some ⟨0x532#12, .absent⟩ ∧
      crcAfter (exec .crcEnd (openMessage 0x41#8)) = some 0x00#8 := by decide

/-- R151's example. -/
theorem test_crcCheck :
    lastResponse (exec (.crcCheck 0x55#8) (openMessage 0x41#8)) = some ⟨0x062#12, .absent⟩ ∧
      lastResponse (exec (.crcCheck 0x53#8) (openMessage 0x41#8)) = some ⟨0x002#12, .absent⟩ := by decide

/-- R35. -/
theorem test_crcEnd_before_reset : exec .crcEnd State.powerOn = .fault .crcBeforeReset := rfl

/-- 95_test_vectors.md program P6: reset forgets the open message. -/
theorem test_reset_event : step (issueFirst .reset (openMessage 0x3A#8)) = .next State.reset := rfl

/-! ### The CRC value by long division (95_test_vectors.md section 3.2) -/

theorem test_crc8_two_bytes : crc8 [0xFF#8, 0xFF#8] none = 0xCA#8 := by decide +kernel

theorem test_crc8_with_check : crc8 [0x41#8, 0x42#8] (some 0x55#8) = 0xFC#8 := by decide +kernel

/-- 95_test_vectors.md section 3.4: the division trace of "A". -/
theorem test_divideBits_of_A :
    divideBits (expandBits [0x41#8, 0x00#8]) =
      List.replicate 8 false ++ [false, true, false, true, false, false, true, true] := by decide +kernel

/-! ### Hypotheses are met -/

theorem witness_DecodeOfEncodeIsTheInstruction : WellFormed (.toHslBad 0b11#2) := by decide

theorem witness_IgnoredPlacesDoNotMatter :
    agreeWhereUsed ⟨0xABB#12, Lanes.zero⟩ ⟨0x003#12, Lanes.ofRgb white⟩ = true ∧
      agreeWhereUsed ⟨0xFFE#12, Lanes.zero⟩ ⟨0xFF2#12, Lanes.ofRgb white⟩ = true ∧
      assemble (.crcData 65) = some ⟨0x412#12, Lanes.zero⟩ := by decide +kernel

theorem witness_AssemblerSelectsTheFormByItsOperand :
    (((0 : ℤ) ≤ 0 ∧ (0 : ℤ) ≤ 255) ∧ ((0 : ℤ) ≤ 128 ∧ (128 : ℤ) ≤ 255) ∧ ((0 : ℤ) ≤ 255 ∧ (255 : ℤ) ≤ 255)) ∧
      (assemble (.toRgbRgb 0 128 255)).isSome = true ∧
      ¬(((0 : ℤ) ≤ 0 ∧ (0 : ℤ) ≤ 255) ∧ ((0 : ℤ) ≤ 256 ∧ (256 : ℤ) ≤ 255) ∧ ((0 : ℤ) ≤ 0 ∧ (0 : ℤ) ≤ 255)) ∧
      assemble (.toHslRgb 0 256 0) = none ∧ assemble (.toHslRgb 0 (-1) 0) = none ∧
      (assemble (.toRgbRaw 2)).isSome = true ∧ (assemble (.toHslRaw 3)).isSome = true ∧
      (assemble (.crcCheck 0)).isSome = true ∧ (assemble (.crcData 255)).isSome = true := by decide +kernel

theorem witness_StepRunsTheDecodedCommand :
    (issueFirst (.command ⟨0x412#12, Lanes.zero⟩) State.reset).commandPort =
      .command ⟨0x412#12, Lanes.zero⟩ :: [] := rfl

theorem witness_ResetEventClearsTheRegisterOnly :
    (issueFirst .reset (openMessage 0x74#8)).commandPort = .reset :: [] := rfl

theorem witness_IdleStepChangesNothing : (openMessage 0x74#8).commandPort = [] := rfl

theorem witness_OneResponsePerAcceptedCommand :
    (∃ t, step (issueFirst (.command ⟨0x003#12, Lanes.zero⟩) State.reset) = .next t) ∧
      (∃ t, step (issueFirst .reset State.powerOn) = .next t) ∧
      (∃ t, step State.reset = .next t) := ⟨⟨_, rfl⟩, ⟨_, rfl⟩, ⟨_, rfl⟩⟩

theorem witness_StepKeepsTheInvariant :
    ∃ t, State.Inv State.reset ∧ step (issueFirst (.command ⟨0x412#12, Lanes.zero⟩) State.reset) = .next t ∧
      State.Inv (issueFirst (.command ⟨0x412#12, Lanes.zero⟩) State.reset) :=
  ⟨_, ⟨rfl, by simp [State.reset]⟩, rfl, ⟨rfl, by simp [State.reset, issueFirst]⟩⟩

/-- The outcomes: each of the three iffs of the CRC part has its case; a readable row is met in the default format. -/
theorem witness_OutcomesOfAForm :
    (isCrcForm (.crcData 0#8) = true ∧ State.reset.crcR.isSome = true) ∧
      (isCrcForm .crcEnd = true ∧ State.powerOn.crcR = none) ∧
      lanesReadable (.toRgbHsl Lanes.zero) = true := by decide +kernel

/-- The words of the nine decode clauses, each with its ignored bits set. -/
theorem witness_decode_clauses :
    0xFF0#12 &&& 0x00F#12 = 0x000#12 ∧ 0xFF4#12 &&& 0x00F#12 = 0x004#12 ∧ 0xFFC#12 &&& 0x00B#12 = 0x008#12 ∧
      0xFF1#12 &&& 0x00F#12 = 0x001#12 ∧ 0xFF5#12 &&& 0x00F#12 = 0x005#12 ∧ 0xFFD#12 &&& 0x00B#12 = 0x009#12 ∧
      0xFFE#12 &&& 0x003#12 = 0x002#12 ∧ 0xFFB#12 &&& 0x007#12 = 0x003#12 ∧ 0xFFF#12 &&& 0x007#12 = 0x007#12 := by
  decide

theorem witness_OnlyBadFormsRaiseTheException :
    (WellFormed (.toRgbBad 0b10#2) ∧ ∃ t, exec (.toRgbBad 0b10#2) State.reset = .next t) ∧
      (WellFormed .crcEnd ∧ ∃ t, exec .crcEnd State.reset = .next t) :=
  ⟨⟨rfl, _, rfl⟩, ⟨rfl, _, rfl⟩⟩

theorem witness_ErrorIsNotSticky :
    isBadForm (.toHslBad 0b10#2) = true ∧ ∃ t, exec (.toHslBad 0b10#2) (openMessage 0x41#8) = .next t := ⟨rfl, _, rfl⟩

theorem witness_ToHslOfRgbRunsTheDatapath :
    ((1#8 : Byte) ≠ 0#8 ∧ (1#8 : Byte) ≠ 255#8) ∧ ((254#8 : Byte) ≠ 0#8 ∧ (254#8 : Byte) ≠ 255#8) ∧
      ((0#8 : Byte) < 1#8 ∧ (1#8 : Byte) ≤ 1#8) := by decide

theorem witness_ColorFormsDoNotTouchTheRegister :
    isCrcForm (.toRgbRgb Lanes.zero) = false ∧ ∃ t, exec (.toRgbRgb Lanes.zero) State.powerOn = .next t := ⟨rfl, _, rfl⟩

theorem witness_ChromaStageOfHsl :
    ((0 : RealNum) ≤ 0 ∧ (0 : RealNum) ≤ 1) ∧ ((0 : RealNum) ≤ 1 ∧ (1 : RealNum) ≤ 1) := by decide +kernel

theorem witness_SecondComponentStage : fmod 1 2 ≤ 1 ∧ 1 ≤ fmod 1 2 ∧ fmod (1 / 2) 2 ≤ 1 ∧ 1 ≤ fmod (-1 / 2) 2 := by
  decide +kernel

theorem witness_CastKeepsTheLowByte :
    (0 : RealNum) ≤ 510 ∧ (-1 / 510 : RealNum) < 0 ∧ ((0 : RealNum) ≤ 255 ∧ (255 : RealNum) < 256) := by decide +kernel

theorem witness_InRangeHslGivesInRangeCasts :
    ((0 : RealNum) ≤ 1 ∧ (1 : RealNum) ≤ 1) ∧ ((0 : RealNum) ≤ 0 ∧ (0 : RealNum) ≤ 1) := by decide +kernel

theorem witness_GuardsFireOnlyAtTheExtremes : 0 < Config.eps ∧ Config.eps < 1 / 510 := by decide +kernel

theorem witness_RgbToHslRanges :
    black = ⟨0#8, 0#8, 0#8⟩ ∧ (⟨0#8, 0#8, 1#8⟩ : RgbRow) ≠ ⟨0#8, 0#8, 0#8⟩ ∧
      ¬((0#8 : Byte) = 0#8 ∧ (0#8 : Byte) = 1#8) := by decide

theorem witness_TieOrderCannotBeObserved :
    ¬((255#8 : Byte) = 0#8 ∧ (0#8 : Byte) = 255#8) ∧
      channelValue ⟨255#8, 0#8, 255#8⟩ .red = cMax ⟨255#8, 0#8, 255#8⟩ ∧
      channelValue ⟨255#8, 0#8, 255#8⟩ .blue = cMax ⟨255#8, 0#8, 255#8⟩ := by decide +kernel

theorem witness_NoDivisionByZeroOfRgb : ¬(|chromaOfRgb ⟨1#8, 0#8, 0#8⟩ - 0| ≤ Config.eps) := by decide +kernel

theorem witness_RoundTripReturnsEveryRowButWhite : (⟨255#8, 254#8, 255#8⟩ : RgbRow) ≠ ⟨255#8, 255#8, 255#8⟩ := by decide

theorem witness_CrcForms_open : (openMessage 0x41#8).crcR = some 0x41#8 ∧ State.reset.crcR = some 0x00#8 := by decide

theorem witness_CrcFormsFaultBeforeTheFirstReset :
    State.powerOn.crcR = none ∧ isCrcForm (.crcCheck 0#8) = true ∧ isCrcForm (.toHslBad 0b10#2) = false := by decide

theorem witness_OpenMessageIsHidden :
    closesMessage (.crcData 0x41#8) = false ∧ closesMessage (.toHslRgb Lanes.zero) = false := by decide

theorem witness_BitsRunMostSignificantFirst :
    [0x41#8, 0x00#8][1]? = some 0x00#8 ∧ [0x41#8, 0x00#8][0]? = some 0x41#8 ∧ (expandByte 0x53#8).length = 8 := by decide

/-- A position whose bit is 0 and one whose bit is 1, at the two ends of the window, and a position outside it. -/
theorem witness_DivisionXorsThePatternIntoTheWindow :
    (expandBits [0x41#8, 0x00#8])[0]? = some false ∧ (expandBits [0x41#8, 0x00#8])[1]? = some true ∧
      (expandBits [0x41#8, 0x00#8])[1 + 8]? = some false ∧
      [true, true, false, false, true, true, false, true, true][8]? = some true ∧
      (0 < 1 ∨ 1 + 8 < 10) ∧ 7 + 8 < (expandBits [0x41#8, 0x00#8]).length := by decide

theorem witness_CrcRoundTripIsZero : crc8 [0x41#8] (some 0x53#8) = 0x00#8 := by decide +kernel

theorem witness_ConsequencesOfTheZeroInitialState : [0x12#8, 0x34#8].length = [0x56#8, 0x78#8].length := rfl

/-- A message with a data byte, a colour conversion and an error in it (95_test_vectors.md programs P3, P4). -/
theorem witness_MessageGivesItsCrc :
    State.reset.crcR = some 0x00#8 ∧
      ([encode (.crcData 0x41#8), callRgbToHsl white, encode (.toRgbBad 0b10#2)].all fun c =>
        !closesMessage (decode c) && lanesReadable (decode c)) = true := by decide +kernel

end Sys2Proof.Tests
end

section
/-! PROOFS. What one form does: an equation for each form and each reading of its operands, and the two facts that say
once how the COLOR and the CRC forms behave (spec/40_color.md R120 to R125, spec/41_crc.md R149 to R151). -/

namespace Sys2Proof.Machine

/-! ### The COLOR forms -/

theorem exec_toRgbRgb (lanes : Lanes) (s : State) :
    exec (.toRgbRgb lanes) s = .next (respond (colorResponse tagRgb (.rgb (readRgbRow lanes))) s) := rfl

theorem exec_toRgbHsl_of_some {lanes : Lanes} {row : HslRow} (h : readHslRow lanes = some row) (s : State) :
    exec (.toRgbHsl lanes) s = .next (respond (colorResponse tagRgb (.rgb (hslToRgbRow row))) s) := by
  simp [exec, execToRgbHsl, h]

theorem exec_toRgbHsl_of_none {lanes : Lanes} (h : readHslRow lanes = none) (s : State) :
    exec (.toRgbHsl lanes) s = .refused .laneNotFinite := by
  simp [exec, execToRgbHsl, h]

theorem exec_toRgbBad (aux : BitVec 2) (s : State) :
    exec (.toRgbBad aux) s = .next (respond (errResponse aux) s) := rfl

theorem exec_toHslRgb (lanes : Lanes) (s : State) :
    exec (.toHslRgb lanes) s =
      .next (respond (colorResponse tagHsl (writeHslRow lanes (rgbToHslRow (readRgbRow lanes)))) s) := rfl

theorem exec_toHslHsl_of_some {lanes : Lanes} {row : HslRow} (h : readHslRow lanes = some row) (s : State) :
    exec (.toHslHsl lanes) s = .next (respond (colorResponse tagHsl (echoHslRow lanes)) s) := by
  simp [exec, execToHslHsl, h]

theorem exec_toHslHsl_of_none {lanes : Lanes} (h : readHslRow lanes = none) (s : State) :
    exec (.toHslHsl lanes) s = .refused .laneNotFinite := by
  simp [exec, execToHslHsl, h]

theorem exec_toHslBad (aux : BitVec 2) (s : State) :
    exec (.toHslBad aux) s = .next (respond (errResponse aux) s) := rfl

/-! ### The CRC forms -/

theorem exec_crcData_of_some {s : State} {r : Byte} (h : s.crcR = some r) (byte : Byte) :
    exec (.crcData byte) s = .next (respond ackResponse (writeCrc (lfsrByte r byte) s)) := by
  simp [exec, execCrcData, readCrc_eq, h]

theorem exec_crcEnd_of_some {s : State} {r : Byte} (h : s.crcR = some r) :
    exec .crcEnd s = .next (closeMessage Config.crcPad r s) := by
  simp [exec, execCrcEnd, readCrc_eq, h]

theorem exec_crcCheck_of_some {s : State} {r : Byte} (h : s.crcR = some r) (check : Byte) :
    exec (.crcCheck check) s = .next (closeMessage check r s) := by
  simp [exec, execCrcCheck, readCrc_eq, h]

/-- R35: without a value in `crc_r` there is nothing a CRC form could read. -/
theorem exec_crcForm_of_none {i : Instr} (hi : isCrcForm i = true) {s : State} (h : s.crcR = none) :
    exec i s = .fault .crcBeforeReset := by
  cases i with
  | crcData byte => simp [exec, execCrcData, readCrc_eq, h]
  | crcEnd => simp [exec, execCrcEnd, readCrc_eq, h]
  | crcCheck check => simp [exec, execCrcCheck, readCrc_eq, h]
  | toRgbRgb _ | toRgbHsl _ | toRgbBad _ | toHslRgb _ | toHslHsl _ | toHslBad _ => simp [isCrcForm] at hi

/-! ### Legal responses (R70, R71) -/

theorem tagIsNeither_iff (aux : BitVec 2) : tagIsNeither aux = true ↔ aux = 0b10#2 ∨ aux = 0b11#2 := by
  revert aux
  decide

theorem tagIsNeither_of_ne {aux : BitVec 2} (h0 : aux ≠ 0b00#2) (h1 : aux ≠ 0b01#2) : tagIsNeither aux = true := by
  revert aux
  decide

@[simp] theorem carriesHsl_writeHslRow (format : Lanes) (row : HslRow) :
    carriesHsl (writeHslRow format row) = true := by
  cases format <;> rfl

@[simp] theorem carriesHsl_echoHslRow (lanes : Lanes) : carriesHsl (echoHslRow lanes) = true := by
  cases lanes <;> rfl

theorem legalResponse_ack : legalResponse ackResponse := .inl ⟨rfl, rfl⟩

theorem legalResponse_color_rgb (row : RgbRow) : legalResponse (colorResponse tagRgb (.rgb row)) :=
  .inr (.inl ⟨rfl, rfl⟩)

theorem legalResponse_color_hsl {lanes : ResponseLanes} (h : carriesHsl lanes = true) :
    legalResponse (colorResponse tagHsl lanes) :=
  .inr (.inr (.inl ⟨rfl, h⟩))

theorem crcResponse_rw_low (v : Byte) : (crcResponse v).rw &&& 0x00F#12 = 0x002#12 := by
  revert v
  decide

theorem legalResponse_crc (v : Byte) : legalResponse (crcResponse v) :=
  .inr (.inr (.inr (.inl ⟨crcResponse_rw_low v, rfl⟩)))

theorem legalResponse_err {aux : BitVec 2} (h : tagIsNeither aux = true) : legalResponse (errResponse aux) := by
  obtain rfl | rfl := (tagIsNeither_iff aux).mp h
  · exact .inr (.inr (.inr (.inr ⟨.inl rfl, rfl⟩)))
  · exact .inr (.inr (.inr (.inr ⟨.inr rfl, rfl⟩)))

/-! ### One response, whatever the state -/

/-- A COLOR form either gives one fixed response in every state, a legal one when the form is well-formed, or it cannot
read its lanes and is refused in every state (R50, R71, R181). -/
theorem exec_colorForm_cases {i : Instr} (hi : isCrcForm i = false) :
    (∃ r : Response, (WellFormed i → legalResponse r) ∧ ∀ s : State, exec i s = .next (respond r s)) ∨
    (lanesReadable i = false ∧ ∀ s : State, exec i s = .refused .laneNotFinite) := by
  cases i with
  | toRgbRgb lanes => exact .inl ⟨_, fun _ => legalResponse_color_rgb _, exec_toRgbRgb lanes⟩
  | toRgbHsl lanes =>
    cases h : readHslRow lanes with
    | some row => exact .inl ⟨_, fun _ => legalResponse_color_rgb _, exec_toRgbHsl_of_some h⟩
    | none => exact .inr ⟨by simp [lanesReadable, h], exec_toRgbHsl_of_none h⟩
  | toRgbBad aux => exact .inl ⟨_, legalResponse_err, exec_toRgbBad aux⟩
  | toHslRgb lanes =>
    exact .inl ⟨_, fun _ => legalResponse_color_hsl (carriesHsl_writeHslRow _ _), exec_toHslRgb lanes⟩
  | toHslHsl lanes =>
    cases h : readHslRow lanes with
    | some row =>
      exact .inl ⟨_, fun _ => legalResponse_color_hsl (carriesHsl_echoHslRow _), exec_toHslHsl_of_some h⟩
    | none => exact .inr ⟨by simp [lanesReadable, h], exec_toHslHsl_of_none h⟩
  | toHslBad aux => exact .inl ⟨_, legalResponse_err, exec_toHslBad aux⟩
  | crcData _ | crcEnd | crcCheck _ => simp [isCrcForm] at hi

/-- R50: a COLOR form carries `crc_r` through unread, so its outcome from any value of `crc_r` gives its outcome from
every other. -/
theorem outcomeWithCrc_exec_colorForm {i : Instr} (hi : isCrcForm i = false) (s : State) (v w : Option Byte) :
    outcomeWithCrc v (exec i { s with crcR := w }) = exec i { s with crcR := v } := by
  obtain ⟨r, -, hexec⟩ | ⟨-, hexec⟩ := exec_colorForm_cases hi
  · rw [hexec, hexec]
    rfl
  · rw [hexec, hexec]
    rfl

end Sys2Proof.Machine
end

section
/-! PROOFS. What one step does, by the oldest event on the port, and that a decoded form is well-formed
(spec/20_memory.md R46, R47; spec/30_encoding.md R67). -/

namespace Sys2Proof

/-- R67: the decoder takes a BAD form only where the tag bits are neither RGB nor HSL. -/
theorem wellFormed_decode (c : Command) : WellFormed (decode c) := by
  unfold decode
  split_ifs with _ h0 h1 _ h0 h1
  · rfl
  · rfl
  · exact Machine.tagIsNeither_of_ne h0 h1
  · rfl
  · rfl
  · exact Machine.tagIsNeither_of_ne h0 h1
  · rfl
  · rfl
  · rfl

end Sys2Proof

namespace Sys2Proof.Machine

theorem step_of_nil {s : State} (h : s.commandPort = []) : step s = .next s := by
  simp [step, acceptEvent_of_nil h]

theorem step_of_reset {s : State} {rest : List HostEvent} (h : s.commandPort = .reset :: rest) :
    step s = .next (applyReset { s with commandPort := rest }) := by
  simp [step, acceptEvent_of_cons h]

theorem step_of_command {s : State} {c : Command} {rest : List HostEvent} (h : s.commandPort = .command c :: rest) :
    step s = exec (decode c) { s with commandPort := rest } := by
  simp [step, acceptEvent_of_cons h]

end Sys2Proof.Machine
end

section
/-! PROOFS. The invariant (spec/10_state.md R20, R34; spec/30_encoding.md R70, R71): each operation on the state keeps it,
so each form does, so each step does. -/

namespace Sys2Proof.Machine

/-- What waits on the command port is no part of the invariant. -/
theorem State.Inv.withPort {s : State} (h : s.Inv) (port : List HostEvent) :
    State.Inv { s with commandPort := port } := h

theorem State.Inv.writeCrc {s : State} (h : s.Inv) (v : Byte) : (writeCrc v s).Inv := ⟨rfl, h.2⟩

theorem State.Inv.applyReset {s : State} (h : s.Inv) : (applyReset s).Inv := h.writeCrc _

theorem State.Inv.respond {s : State} (h : s.Inv) {r : Response} (hr : legalResponse r) : (respond r s).Inv := by
  obtain ⟨hcrc, hlegal⟩ := h
  refine ⟨hcrc, fun x hx => ?_⟩
  rw [respond_responses, List.mem_append, List.mem_singleton] at hx
  obtain hx | rfl := hx
  · exact hlegal x hx
  · exact hr

theorem State.Inv.closeMessage {s : State} (h : s.Inv) (last r : Byte) : (closeMessage last r s).Inv :=
  (h.writeCrc _).respond (legalResponse_crc _)

theorem exec_crcForm_keeps_inv {i : Instr} (hi : isCrcForm i = true) {s t : State} (h : s.Inv)
    (hexec : exec i s = .next t) : t.Inv := by
  obtain ⟨r, hr⟩ := Option.isSome_iff_exists.mp h.1
  cases i with
  | crcData byte =>
    rw [exec_crcData_of_some hr] at hexec
    cases hexec
    exact (h.writeCrc _).respond legalResponse_ack
  | crcEnd =>
    rw [exec_crcEnd_of_some hr] at hexec
    cases hexec
    exact h.closeMessage _ _
  | crcCheck check =>
    rw [exec_crcCheck_of_some hr] at hexec
    cases hexec
    exact h.closeMessage _ _
  | toRgbRgb _ | toRgbHsl _ | toRgbBad _ | toHslRgb _ | toHslHsl _ | toHslBad _ => simp [isCrcForm] at hi

theorem exec_colorForm_keeps_inv {i : Instr} (hi : isCrcForm i = false) (hwf : WellFormed i) {s t : State}
    (h : s.Inv) (hexec : exec i s = .next t) : t.Inv := by
  obtain ⟨r, hlegal, heq⟩ | ⟨-, heq⟩ := exec_colorForm_cases hi
  · rw [heq] at hexec
    cases hexec
    exact h.respond (hlegal hwf)
  · rw [heq] at hexec
    cases hexec

theorem exec_keeps_inv {i : Instr} (hwf : WellFormed i) {s t : State} (h : s.Inv) (hexec : exec i s = .next t) :
    t.Inv := by
  cases hi : isCrcForm i with
  | true => exact exec_crcForm_keeps_inv hi h hexec
  | false => exact exec_colorForm_keeps_inv hi hwf h hexec

/-- Settles O12: by the oldest event on the port; a command's form is well-formed, so its response is legal. -/
theorem stepKeepsTheInvariant : Obligations.StepKeepsTheInvariant := by
  intro s t h hstep
  match hport : s.commandPort with
  | [] =>
    rw [step_of_nil hport] at hstep
    cases hstep
    exact h
  | .reset :: rest =>
    rw [step_of_reset hport] at hstep
    cases hstep
    exact (h.withPort rest).applyReset
  | .command c :: rest =>
    rw [step_of_command hport] at hstep
    exact exec_keeps_inv (wellFormed_decode c) (h.withPort rest) hstep

/-- Settles O9: the fields as R34 and R35 give them, and the reset event by its step lemma. -/
theorem stateAfterReset : Obligations.StateAfterReset :=
  ⟨rfl, rfl, rfl, rfl, step_of_reset (issueFirst_commandPort .reset State.powerOn)⟩

/-- Settles O13: `crc_r` has its reset value and there is no response. -/
theorem resetMeetsTheInvariant : Obligations.ResetMeetsTheInvariant :=
  ⟨rfl, List.forall_mem_nil _⟩

end Sys2Proof.Machine
end

section
/-! PROOFS. What the outcome of a form tells of `crc_r` (spec/10_state.md R27, R35). -/

namespace Sys2Proof.Machine

/-- The one form that neither closes a message nor is a COLOR form is `CRC_DATA`. -/
theorem colorForm_or_crcData {i : Instr} (hi : closesMessage i = false) :
    isCrcForm i = false ∨ ∃ byte, i = .crcData byte := by
  cases i with
  | crcData byte => exact .inr ⟨byte, rfl⟩
  | crcEnd | crcCheck _ => simp [closesMessage] at hi
  | toRgbRgb _ | toRgbHsl _ | toRgbBad _ | toHslRgb _ | toHslHsl _ | toHslBad _ => exact .inl rfl

/-- Settles O42: a CRC form reads the missing value and faults; a COLOR form carries `crc_r` through unread. -/
theorem crcFormsFaultBeforeTheFirstReset : Obligations.CrcFormsFaultBeforeTheFirstReset := by
  intro s hnone
  refine ⟨fun i hi => exec_crcForm_of_none hi hnone, fun i hi => ?_⟩
  rw [outcomeWithCrc_exec_colorForm hi, ← hnone]

/-- Settles O43: a COLOR form carries `crc_r` through unread, and `CRC_DATA` answers the same acknowledge always. -/
theorem openMessageIsHidden : Obligations.OpenMessageIsHidden := by
  intro i s v w hi
  obtain hcolor | ⟨byte, rfl⟩ := colorForm_or_crcData hi
  · rw [outcomeWithCrc_exec_colorForm hcolor, outcomeWithCrc_exec_colorForm hcolor]
  · rw [exec_crcData_of_some rfl, exec_crcData_of_some rfl]
    rfl

end Sys2Proof.Machine
end

section
/-! PROOFS. What a command leaves on the two ports and in `crc_r` (spec/20_memory.md R42, R46, R47, R50). -/

namespace Sys2Proof.Machine

/-- R42, R46: all that a form can do, where it answers a next state, is to give one response and to set `crc_r`. -/
theorem exec_next_cases {i : Instr} {s t : State} (h : exec i s = .next t) :
    ∃ (v : Option Byte) (r : Response), t = respond r { s with crcR := v } := by
  cases hi : isCrcForm i with
  | false =>
    obtain ⟨r, -, hexec⟩ | ⟨-, hexec⟩ := exec_colorForm_cases hi
    · rw [hexec] at h
      cases h
      exact ⟨s.crcR, r, rfl⟩
    · rw [hexec] at h
      cases h
  | true =>
    cases hcrc : s.crcR with
    | none =>
      rw [exec_crcForm_of_none hi hcrc] at h
      cases h
    | some v =>
      cases i with
      | crcData byte =>
        rw [exec_crcData_of_some hcrc] at h
        cases h
        exact ⟨_, _, rfl⟩
      | crcEnd =>
        rw [exec_crcEnd_of_some hcrc] at h
        cases h
        exact ⟨_, _, rfl⟩
      | crcCheck check =>
        rw [exec_crcCheck_of_some hcrc] at h
        cases h
        exact ⟨_, _, rfl⟩
      | toRgbRgb _ | toRgbHsl _ | toRgbBad _ | toHslRgb _ | toHslHsl _ | toHslBad _ => simp [isCrcForm] at hi

theorem exec_colorForm_crcR {i : Instr} (hi : isCrcForm i = false) {s t : State} (h : exec i s = .next t) :
    t.crcR = s.crcR := by
  obtain ⟨r, -, hexec⟩ | ⟨-, hexec⟩ := exec_colorForm_cases hi
  · rw [hexec] at h
    cases h
    rfl
  · rw [hexec] at h
    cases h

/-- Settles O10: by the oldest event on the port; a command's form gives its one response and leaves the port alone. -/
theorem oneResponsePerAcceptedCommand : Obligations.OneResponsePerAcceptedCommand := by
  intro s t hstep
  refine ⟨fun c rest hport => ?_, fun rest hport => ?_, fun hport => ?_⟩
  · rw [step_of_command hport] at hstep
    obtain ⟨v, r, rfl⟩ := exec_next_cases hstep
    exact ⟨rfl, r, rfl⟩
  · rw [step_of_reset hport] at hstep
    cases hstep
    exact ⟨rfl, rfl⟩
  · rw [step_of_nil hport] at hstep
    cases hstep
    exact ⟨hport, rfl⟩

/-- Settles O23: a COLOR form carries `crc_r` through unread, and its next state adds a response alone. -/
theorem colorFormsDoNotTouchTheRegister : Obligations.ColorFormsDoNotTouchTheRegister := by
  intro i s v hi
  exact ⟨(outcomeWithCrc_exec_colorForm hi s v s.crcR).symm, fun _ hexec => exec_colorForm_crcR hi hexec⟩

/-- Settles O6: the decoder gives well-formed forms only, and the step is the execution of the form it gives. -/
theorem stepRunsTheDecodedCommand : Obligations.StepRunsTheDecodedCommand :=
  fun _ c _ hport => ⟨wellFormed_decode c, step_of_command hport⟩

end Sys2Proof.Machine
end

section
/-! PROOFS. The decoder inverts the encoder, and the fields `op` and `aux` alone select the row of the opcode map
(spec/30_encoding.md R61, R62, R67). -/

namespace Sys2Proof

theorem ne_of_tagIsNeither {aux : BitVec 2} (h : tagIsNeither aux = true) : aux ≠ 0b00#2 ∧ aux ≠ 0b01#2 := by
  revert aux
  decide

/-- Each test of the decoder reads a field that the encoder has put into the word. -/
theorem decode_encode {i : Instr} (h : WellFormed i) : decode (encode i) = i := by
  cases i with
  | toRgbBad aux | toHslBad aux =>
    obtain ⟨h0, h1⟩ := ne_of_tagIsNeither h
    simp [encode, decode, h0, h1]
  | toRgbRgb _ | toRgbHsl _ | toHslRgb _ | toHslHsl _ | crcData _ | crcEnd | crcCheck _ => simp [encode, decode]

/-- Settles O1: each field of the word is read back as it was written. -/
theorem decodeOfEncodeIsTheInstruction : Obligations.DecodeOfEncodeIsTheInstruction :=
  fun _ => decode_encode

theorem commandWord_and (byte byte' : Byte) (aux aux' op op' : BitVec 2) :
    commandWord byte aux op &&& commandWord byte' aux' op' =
      commandWord (byte &&& byte') (aux &&& aux') (op &&& op') := by
  refine BitVec.eq_of_getLsbD_eq fun k _ => ?_
  simp only [BitVec.getLsbD_and, commandWord_getLsbD]
  split_ifs <;> rfl

/-- No row of R62 selects by the byte field. -/
theorem mask_eq_commandWord (f : Form) :
    (opcodeRow f).mask = commandWord 0#8 (auxField (opcodeRow f).mask) (opField (opcodeRow f).mask) := by
  cases f <;> rfl

theorem selectedBy_commandWord (f : Form) (byte : Byte) (aux op : BitVec 2) :
    (opcodeRow f).selectedBy (commandWord byte aux op) = (opcodeRow f).selectedBy (commandWord 0#8 aux op) := by
  simp only [OpcodeRow.selectedBy]
  rw [mask_eq_commandWord, commandWord_and, commandWord_and, BitVec.and_zero, BitVec.and_zero]

/-- The decoder chooses the form by `op` and `aux`; byte and lanes are operands only. -/
theorem formOf_decode_commandWord (byte : Byte) (aux op : BitVec 2) (lanes : Lanes) :
    formOf (decode ⟨commandWord byte aux op, lanes⟩) = formOf (decode ⟨commandWord 0#8 aux op, Lanes.zero⟩) := by
  simp only [decode, opField_commandWord, auxField_commandWord, hasCheck_commandWord]
  split_ifs <;> rfl

/-- R62 at its sixteen values of `aux` and `op`. -/
theorem selectedBy_iff_of_fields (f : Form) (aux op : BitVec 2) :
    (opcodeRow f).selectedBy (commandWord 0#8 aux op) = true ↔
      f = formOf (decode ⟨commandWord 0#8 aux op, Lanes.zero⟩) := by
  revert aux op
  cases f <;> decide

/-- R62 ("Every 12-bit value of `cw` selects exactly one of them"): the row that a word selects is that of its form. -/
theorem selectedBy_iff (f : Form) (c : Command) :
    (opcodeRow f).selectedBy c.cw = true ↔ f = formOf (decode c) := by
  obtain ⟨cw, lanes⟩ := c
  rw [← commandWord_fields cw, selectedBy_commandWord, formOf_decode_commandWord, selectedBy_iff_of_fields]

/-- Settles O2: the decoder answers well-formed forms only, and the fields `op` and `aux` select row and form alike. -/
theorem everyWordSelectsOnlyTheRowOfItsForm : Obligations.EveryWordSelectsOnlyTheRowOfItsForm :=
  fun c => ⟨wellFormed_decode c, fun f => selectedBy_iff f c⟩

/-- Settles O4: each word's fields, read bit by bit. -/
theorem wordsOfTheSpecDecode : Obligations.WordsOfTheSpecDecode := by
  intro lanes
  simp [decode, opField, auxField, byteField, hasCheck]

end Sys2Proof
end

section
/-! PROOFS. The ignored bits and lanes (spec/30_encoding.md R66): decoding a command and encoding it again puts zeros
there and keeps the rest, so commands that agree in the rest decode alike; and the assembler writes zeros there. -/

namespace Sys2Proof

theorem agreeWhereUsed_iff {c d : Command} :
    agreeWhereUsed c d = true ↔
      c.cw &&& (opcodeRow (formOf (decode c))).used = d.cw &&& (opcodeRow (formOf (decode c))).used ∧
        ((opcodeRow (formOf (decode c))).usesLanes = true → c.lanes = d.lanes) := by
  simp only [agreeWhereUsed, Bool.and_eq_true, beq_iff_eq, Bool.or_eq_true, Bool.not_eq_true', imp_iff_not_or,
    Bool.not_eq_true]

/-- The command with zeros wherever the form does not use it (R66). -/
def keepUsed (f : Form) (c : Command) : Command :=
  ⟨c.cw &&& (opcodeRow f).used, if (opcodeRow f).usesLanes then c.lanes else Lanes.zero⟩

theorem keepUsed_eq_of_agreeWhereUsed {c d : Command} (h : agreeWhereUsed c d = true) :
    keepUsed (formOf (decode c)) c = keepUsed (formOf (decode c)) d := by
  obtain ⟨hword, hlanes⟩ := agreeWhereUsed_iff.mp h
  rw [keepUsed, keepUsed, hword, ite_congr rfl hlanes fun _ => rfl]

theorem keepUsed_cw_ignored (f : Form) (c : Command) : (keepUsed f c).cw &&& ~~~(opcodeRow f).used = 0#12 := by
  simp [keepUsed, BitVec.and_assoc]

theorem keepUsed_lanes_ignored {f : Form} (h : (opcodeRow f).usesLanes = false) (c : Command) :
    (keepUsed f c).lanes = Lanes.zero := by
  simp only [keepUsed, h, Bool.false_eq_true, if_false]

theorem op_cases (op : BitVec 2) : op = 0b00#2 ∨ op = 0b01#2 ∨ op = 0b10#2 ∨ op = 0b11#2 := by
  revert op
  decide

theorem and_one_eq_ite (aux : BitVec 2) : aux &&& 0b01#2 = if aux[0] then 0b01#2 else 0b00#2 := by
  revert aux
  decide

/-! What is left of a word under each mask of used bits in R62's table. -/

theorem commandWord_and_op_aux (byte : Byte) (aux op : BitVec 2) :
    commandWord byte aux op &&& 0x00F#12 = commandWord 0#8 aux op := by
  calc _ = commandWord (byte &&& 0#8) (aux &&& BitVec.allOnes 2) (op &&& BitVec.allOnes 2) := commandWord_and ..
    _ = _ := by simp only [BitVec.and_zero, BitVec.and_allOnes]

theorem commandWord_and_op_byte (byte : Byte) (aux op : BitVec 2) :
    commandWord byte aux op &&& 0xFF3#12 = commandWord byte 0b00#2 op := by
  calc _ = commandWord (byte &&& BitVec.allOnes 8) (aux &&& 0#2) (op &&& BitVec.allOnes 2) := commandWord_and ..
    _ = _ := by simp only [BitVec.and_zero, BitVec.and_allOnes]

theorem commandWord_and_op_hasCheck (byte : Byte) (aux op : BitVec 2) :
    commandWord byte aux op &&& 0x007#12 = commandWord 0#8 (if aux[0] then 0b01#2 else 0b00#2) op := by
  calc _ = commandWord (byte &&& 0#8) (aux &&& 0b01#2) (op &&& BitVec.allOnes 2) := commandWord_and ..
    _ = _ := by simp only [BitVec.and_zero, BitVec.and_allOnes, and_one_eq_ite]

theorem commandWord_and_op_hasCheck_byte (byte : Byte) (aux op : BitVec 2) :
    commandWord byte aux op &&& 0xFF7#12 = commandWord byte (if aux[0] then 0b01#2 else 0b00#2) op := by
  calc _ = commandWord (byte &&& BitVec.allOnes 8) (aux &&& 0b01#2) (op &&& BitVec.allOnes 2) := commandWord_and ..
    _ = _ := by simp only [BitVec.and_allOnes, and_one_eq_ite]

theorem encode_decode_commandWord (byte : Byte) (aux op : BitVec 2) (lanes : Lanes) :
    encode (decode ⟨commandWord byte aux op, lanes⟩) =
      keepUsed (formOf (decode ⟨commandWord byte aux op, lanes⟩)) ⟨commandWord byte aux op, lanes⟩ := by
  obtain rfl | rfl | rfl | rfl := op_cases op
  case inl | inr.inl =>
    by_cases h0 : aux = 0b00#2 <;> by_cases h1 : aux = 0b01#2 <;>
      simp [decode, encode, keepUsed, formOf, opcodeRow, commandWord_and_op_aux, h0, h1]
  case inr.inr.inl => simp [decode, encode, keepUsed, formOf, opcodeRow, commandWord_and_op_byte]
  case inr.inr.inr =>
    cases hcheck : aux[0] with
    | false => simp [decode, encode, keepUsed, formOf, opcodeRow, commandWord_and_op_hasCheck, hcheck]
    | true => simp [decode, encode, keepUsed, formOf, opcodeRow, commandWord_and_op_hasCheck_byte, hcheck]

/-- Every operand a form has comes back from its own command, and all else comes back as zeros. -/
theorem encode_decode (c : Command) : encode (decode c) = keepUsed (formOf (decode c)) c := by
  obtain ⟨cw, lanes⟩ := c
  rw [← commandWord_fields cw, encode_decode_commandWord]

theorem mask_and_used (f : Form) : (opcodeRow f).used &&& (opcodeRow f).mask = (opcodeRow f).mask := by
  cases f <;> rfl

/-- A row is selected by bits it marks as used. -/
theorem selectedBy_keepUsed (f : Form) (c : Command) :
    (opcodeRow f).selectedBy (keepUsed f c).cw = (opcodeRow f).selectedBy c.cw := by
  rw [OpcodeRow.selectedBy, keepUsed, BitVec.and_assoc, mask_and_used, OpcodeRow.selectedBy]

/-- R66: the decoder reads no bit and no lane that the form of the command does not use. -/
theorem decode_eq_of_agreeWhereUsed {c d : Command} (h : agreeWhereUsed c d = true) : decode c = decode d := by
  have hkeep := keepUsed_eq_of_agreeWhereUsed h
  have hform : formOf (decode c) = formOf (decode d) := by
    rw [← selectedBy_iff, ← selectedBy_keepUsed, ← hkeep, selectedBy_keepUsed, selectedBy_iff]
  rw [← decode_encode (wellFormed_decode c), encode_decode, hkeep, hform, ← encode_decode,
    decode_encode (wellFormed_decode d)]

end Sys2Proof
end

section
/-! PROOFS. The assembler's lines: their operands, and that the command of a line is the encoding of its form
(spec/30_encoding.md R66, R72). -/

namespace Sys2Proof.Machine

theorem step_issueFirst_command (c : Command) (s : State) :
    step (issueFirst (.command c) s) = exec (decode c) s :=
  step_of_command (issueFirst_commandPort (.command c) s)

/-! ### The assembler's operands (R72) -/

theorem byteOperand_of_mem {n : ℤ} (h : 0 ≤ n ∧ n ≤ 255) : byteOperand n = some (BitVec.ofInt 8 n) := if_pos h

theorem mem_of_byteOperand {n : ℤ} {b : Byte} (h : byteOperand n = some b) : 0 ≤ n ∧ n ≤ 255 :=
  (Option.ite_some_none_eq_some.mp h).1

theorem tagOperand_of_mem {t : ℤ} (h : t = 2 ∨ t = 3) : tagOperand t = some (BitVec.ofInt 2 t) := if_pos h

theorem tagIsNeither_of_tagOperand {t : ℤ} {aux : BitVec 2} (h : tagOperand t = some aux) :
    tagIsNeither aux = true := by
  obtain ⟨rfl | rfl, rfl⟩ := Option.ite_some_none_eq_some.mp h <;> rfl

theorem rgbOperand_of_mem {r g b : ℤ} (hr : 0 ≤ r ∧ r ≤ 255) (hg : 0 ≤ g ∧ g ≤ 255) (hb : 0 ≤ b ∧ b ≤ 255) :
    rgbOperand r g b = some (Lanes.ofRgb ⟨BitVec.ofInt 8 r, BitVec.ofInt 8 g, BitVec.ofInt 8 b⟩) := by
  simp only [rgbOperand, byteOperand_of_mem hr, byteOperand_of_mem hg, byteOperand_of_mem hb]

/-- One channel out of range is enough for the row to be refused. -/
theorem rgbOperand_of_not_mem {r g b : ℤ} (h : ¬((0 ≤ r ∧ r ≤ 255) ∧ (0 ≤ g ∧ g ≤ 255) ∧ (0 ≤ b ∧ b ≤ 255))) :
    rgbOperand r g b = none := by
  unfold rgbOperand
  split
  case h_1 hr hg hb => exact absurd ⟨mem_of_byteOperand hr, mem_of_byteOperand hg, mem_of_byteOperand hb⟩ h
  case h_2 => rfl

/-! ### The assembler's commands (R72) -/

/-- R64, R72: `raw` takes no tag but 2 and 3, so a line that is accepted is of a well-formed form. -/
theorem wellFormed_of_lineInstr {line : AsmLine} {i : Instr} (h : lineInstr line = some i) : WellFormed i := by
  cases line with
  | toRgbRaw t | toHslRaw t =>
    obtain ⟨aux, haux, rfl⟩ := Option.map_eq_some_iff.mp h
    exact tagIsNeither_of_tagOperand haux
  | toRgbRgb r g b | toHslRgb r g b | crcData b | crcCheck c =>
    obtain ⟨_, -, rfl⟩ := Option.map_eq_some_iff.mp h
    rfl
  | toRgbHsl _ _ _ | toHslHsl _ _ _ | crcEnd =>
    cases h
    rfl

/-- The command that the assembler writes decodes to the form the line selects. -/
theorem assemble_map_decode (line : AsmLine) : (assemble line).map decode = lineInstr line := by
  rw [assemble]
  cases h : lineInstr line with
  | none => rfl
  | some i => exact congrArg some (decode_encode (wellFormed_of_lineInstr h))

/-- The assembler writes the canonical command of some well-formed form. -/
theorem encode_decode_of_assemble {line : AsmLine} {c : Command} (h : assemble line = some c) :
    encode (decode c) = c := by
  obtain ⟨i, hi, rfl⟩ := Option.map_eq_some_iff.mp h
  rw [decode_encode (wellFormed_of_lineInstr hi)]

/-- Settles O3: the decoder reads the used places only, and the assembler writes the canonical commands. -/
theorem ignoredPlacesDoNotMatter : Obligations.IgnoredPlacesDoNotMatter := by
  refine ⟨fun c d s hagree => ?_, fun line c hline => ?_⟩
  · rw [step_issueFirst_command, step_issueFirst_command, decode_eq_of_agreeWhereUsed hagree]
  · have hcanonical : keepUsed (formOf (decode c)) c = c := by
      rw [← encode_decode, encode_decode_of_assemble hline]
    have hword := keepUsed_cw_ignored (formOf (decode c)) c
    rw [hcanonical] at hword
    refine ⟨hword, fun hlanes => ?_⟩
    rw [← hcanonical, keepUsed_lanes_ignored hlanes]

/-- Settles O5: every line's command decodes to the form of the line, and its integer operands pass the range check
exactly as R72 has it. -/
theorem assemblerSelectsTheFormByItsOperand : Obligations.AssemblerSelectsTheFormByItsOperand := by
  simp only [Obligations.AssemblerSelectsTheFormByItsOperand, assemble_map_decode]
  refine ⟨fun r g b ⟨hr, hg, hb⟩ => ?_, fun r g b h => ?_, fun h s l => ⟨rfl, rfl⟩, fun t ht => ?_, fun b hb => ?_, rfl⟩
  · simp only [lineInstr, rgbOperand_of_mem hr hg hb, Option.map_some, and_self]
  · simp only [assemble, lineInstr, rgbOperand_of_not_mem h, Option.map_none, and_self]
  · simp only [lineInstr, tagOperand_of_mem ht, Option.map_some, and_self]
  · simp only [lineInstr, byteOperand_of_mem hb, Option.map_some, and_self]

end Sys2Proof.Machine
end

section
/-! PROOFS. How the lanes are read, and what the forms with tag HSL do on lanes of a configured finite format
(spec/30_encoding.md R63, spec/40_color.md R124, spec/60_exceptions.md R181). -/

namespace Sys2Proof.Machine

/-- Settles O14: each format's readings, lane by lane. -/
theorem lanesAreReadAsTheTagSays : Obligations.LanesAreReadAsTheTagSays :=
  ⟨fun l0 l1 l2 => ⟨readRgbRow_exact l0 l1 l2, readHslRow_exact l0 l1 l2⟩,
    fun p0 p1 p2 => ⟨⟨lowByte_toNat p0, lowByte_toNat p1, lowByte_toNat p2⟩, fun _ _ _ => decodePatterns_eq_some⟩⟩

/-- Settles O15: the row is read exactly when all three patterns decode. -/
theorem formsOnFiniteFormatLanes : Obligations.FormsOnFiniteFormatLanes := by
  intro p0 p1 p2 s
  refine ⟨exec_toHslRgb (.wire p0 p1 p2) s, ?_⟩
  split
  case h_1 h sat l hh hsat hl =>
    have hrow : readHslRow (.wire p0 p1 p2) = some ⟨h, sat, l⟩ := decodePatterns_eq_some.mpr ⟨hh, hsat, hl⟩
    exact ⟨exec_toRgbHsl_of_some hrow s, exec_toHslHsl_of_some hrow s⟩
  case h_2 hnot =>
    have hrow : readHslRow (.wire p0 p1 p2) = none := by
      refine Option.eq_none_iff_forall_ne_some.mpr fun row hrow => ?_
      obtain ⟨hh, hsat, hl⟩ := decodePatterns_eq_some.mp hrow
      exact hnot _ _ _ hh hsat hl
    exact ⟨exec_toRgbHsl_of_none hrow s, exec_toHslHsl_of_none hrow s⟩

end Sys2Proof.Machine
end

section
/-! PROOFS. The register computes the long division (spec/41_crc.md R144 to R148): the division step at the front of the
sequence turns the register's eight bits, which stand there, and the bit after them into the next register. -/

namespace Sys2Proof.Machine

theorem xorWindow_zero_cons (a : Bool) (bits : List Bool) (i : Nat) :
    xorWindow (i + 1) (a :: bits) = a :: xorWindow i bits := by
  simp [xorWindow]

theorem divideAt_succ_cons (a : Bool) (bits : List Bool) (i : Nat) :
    divideAt (a :: bits) (i + 1) = a :: divideAt bits i := by
  simp only [divideAt, List.getD_cons_succ, xorWindow_zero_cons]
  split_ifs <;> rfl

theorem foldl_divideAt_succ_cons (a : Bool) (positions : List Nat) (bits : List Bool) :
    (positions.map (· + 1)).foldl divideAt (a :: bits) = a :: positions.foldl divideAt bits := by
  induction positions generalizing bits with
  | nil => rfl
  | cons i positions ih => simp only [List.map_cons, List.foldl_cons, divideAt_succ_cons, ih]

/-- Behind the window the sequence stays as it is. -/
theorem xorWindow_zero_append {window : List Bool} (h : window.length = 9) (rest : List Bool) :
    xorWindow 0 (window ++ rest) = xorWindow 0 window ++ rest := by
  have hrest : rest.mapIdx (fun _ b => b) = rest := List.ext_getElem (by simp) (by simp)
  simp [xorWindow, List.mapIdx_append, h, Config.poly9, hrest]

theorem divideAt_zero_append {window : List Bool} (h : window.length = 9) (rest : List Bool) :
    divideAt (window ++ rest) 0 = divideAt window 0 ++ rest := by
  rw [divideAt, divideAt, List.getD_append _ _ _ _ (by omega), xorWindow_zero_append h]
  split_ifs <;> rfl

/-- R146: bit 0 takes the message bit and every other bit the one below it; the bit that leaves is fed back. -/
theorem lfsrBit_getLsbD (s : Byte) (d : Bool) {k : Nat} (hk : k < 8) :
    (lfsrBit s d).getLsbD k =
      ((if k = 0 then d else s.getLsbD (k - 1)) ^^ (s.getLsbD 7 && Config.poly8.getLsbD k)) := by
  have hshift : (shiftIn s d).getLsbD k = if k = 0 then d else s.getLsbD (k - 1) := by
    change (s.extractLsb' 0 7 ++ BitVec.ofBool d : BitVec (7 + 1)).getLsbD k = _
    rw [BitVec.getLsbD_append]
    split_ifs <;> simp <;> omega
  rw [lfsrBit]
  cases s.getLsbD 7 <;> simp [hshift]

/-- R144, R146: on the window in which the register's bits and the next message bit stand, the division step is the
register's bit step. -/
theorem divideAt_expandByte_append (s : Byte) (d : Bool) :
    divideAt (expandByte s ++ [d]) 0 = false :: expandByte (lfsrBit s d) := by
  simp only [expandByte, List.map_cons, List.map_nil, lfsrBit_getLsbD, Nat.reduceLT]
  cases s.getLsbD 7 <;> simp [divideAt, xorWindow, Config.poly8, Config.poly9]

theorem expandByte_length (y : Byte) : (expandByte y).length = 8 := rfl

/-- The first division step leaves a zero in front of the sequence of the next register. -/
theorem divideBits_expandByte_cons (s : Byte) (d : Bool) (rest : List Bool) :
    divideBits (expandByte s ++ d :: rest) = false :: divideBits (expandByte (lfsrBit s d) ++ rest) := by
  have hstep : divideAt (expandByte s ++ d :: rest) 0 = false :: (expandByte (lfsrBit s d) ++ rest) := by
    rw [List.append_cons, divideAt_zero_append rfl, divideAt_expandByte_append, List.cons_append]
  have hpositions : (expandByte s ++ d :: rest).length - 8 = (expandByte (lfsrBit s d) ++ rest).length - 8 + 1 := by
    simp [expandByte_length]
  rw [divideBits, hpositions, List.range_succ_eq_map, List.foldl_cons, hstep, foldl_divideAt_succ_cons, divideBits]

/-- R148: the last eight bits of the divided sequence are the register after all the bits. -/
theorem divideBits_drop (s : Byte) (bits : List Bool) :
    (divideBits (expandByte s ++ bits)).drop bits.length = expandByte (bits.foldl lfsrBit s) := by
  induction bits generalizing s with
  | nil => rfl
  | cons d bits ih => rw [divideBits_expandByte_cons, List.length_cons, List.drop_succ_cons, ih, List.foldl_cons]

/-! ### From bits to bytes (R143, R145, R147) -/

theorem packBits_expandByte (y : Byte) : packBits (expandByte y) = y := by
  revert y
  decide

theorem expandBits_cons (y : Byte) (ys : List Byte) : expandBits (y :: ys) = expandByte y ++ expandBits ys :=
  List.flatMap_cons

theorem foldl_lfsrBit_expandByte (s y : Byte) : (expandByte y).foldl lfsrBit s = lfsrByte s y :=
  List.foldl_map

theorem foldl_lfsrBit_expandBits (s : Byte) (ys : List Byte) :
    (expandBits ys).foldl lfsrBit s = lfsrBytes s ys := by
  induction ys generalizing s with
  | nil => rfl
  | cons y ys ih =>
    rw [expandBits_cons, List.foldl_append, foldl_lfsrBit_expandByte, ih]
    rfl

/-- The first byte goes through the empty register as it is: no bit leaves at the top. -/
theorem lfsrByte_zero (y : Byte) : lfsrByte 0#8 y = y := by
  revert y
  decide

/-- The division of a sequence of bytes, read back as a byte (R145), is the register after those bytes. -/
theorem packBits_divideBits_expandBits (y : Byte) (ys : List Byte) :
    packBits ((divideBits (expandBits (y :: ys))).drop ((expandBits (y :: ys)).length - 8)) =
      lfsrBytes 0x00#8 (y :: ys) := by
  have hlength : (expandBits (y :: ys)).length - 8 = (expandBits ys).length := by
    simp [expandBits_cons, expandByte_length]
  rw [hlength, expandBits_cons, divideBits_drop, packBits_expandByte, foldl_lfsrBit_expandBits, lfsrBytes, lfsrBytes,
    List.foldl_cons, lfsrByte_zero]

/-- R148: the register, started from 0x00, holds the CRC value after the bytes of the padded message. -/
theorem crc8_eq_lfsrBytes (data : List Byte) (check : Option Byte) :
    crc8 data check = lfsrBytes 0x00#8 (data ++ [appendedByte check]) := by
  cases data with
  | nil => exact packBits_divideBits_expandBits _ []
  | cons y ys => exact packBits_divideBits_expandBits y (ys ++ [appendedByte check])

end Sys2Proof.Machine
end

section
/-! PROOFS. Running what the host has issued (spec/20_memory.md R46, R47), and the library's `crc8` call
(spec/30_encoding.md R73, spec/41_crc.md R152). -/

namespace Sys2Proof.Machine

/-- The first of the issued commands is the one the step carries out; the others still wait. -/
theorem step_issueCommands_cons (c : Command) (cs : List Command) (s : State) :
    step (issueCommands (c :: cs) s) = exec (decode c) (issueCommands cs s) :=
  step_of_command rfl

theorem steps_succ_of_next {s t : State} (h : step s = .next t) (n : Nat) : steps (n + 1) s = steps n t := by
  rw [steps, h]

/-- R149: the state after data bytes have gone into a register that holds `r`, each with its acknowledge. -/
def afterData (bytes : List Byte) (r : Byte) (s : State) : State :=
  { s with crcR := some (lfsrBytes r bytes)
           responses := s.responses ++ List.replicate bytes.length ackResponse }

theorem step_issueCommands_crcData {s : State} {r : Byte} (h : s.crcR = some r) (b : Byte) (cs : List Command) :
    step (issueCommands (encode (.crcData b) :: cs) s) = .next (issueCommands cs (afterData [b] r s)) := by
  rw [step_issueCommands_cons, decode_encode rfl]
  exact exec_crcData_of_some (s := issueCommands cs s) h b

theorem afterData_append (bytes bytes' : List Byte) (r : Byte) (s : State) :
    afterData bytes' (lfsrBytes r bytes) (afterData bytes r s) = afterData (bytes ++ bytes') r s := by
  simp [afterData, lfsrBytes, ← List.replicate_append_replicate]

/-- R149: the data commands of a message, one step each. -/
theorem steps_issueCommands_crcData {s : State} {r : Byte} (h : s.crcR = some r) (bytes : List Byte)
    (cs : List Command) (n : Nat) :
    steps (bytes.length + n) (issueCommands (bytes.map (fun b => encode (.crcData b)) ++ cs) s) =
      steps n (issueCommands cs (afterData bytes r s)) := by
  induction bytes generalizing s r with
  | nil => simp [afterData, lfsrBytes, ← h]
  | cons b bytes ih =>
    rw [List.length_cons, Nat.add_right_comm, List.map_cons, List.cons_append,
      steps_succ_of_next (step_issueCommands_crcData h b _), ih rfl, afterData_append,
      List.singleton_append]

/-- R150, R151: the closing command takes the appended byte in. -/
theorem step_issueCommands_closingCommand {s : State} {r : Byte} (h : s.crcR = some r) (check : Option Byte) :
    step (issueCommands [closingCommand check] s) = .next (closeMessage (appendedByte check) r s) := by
  rw [step_issueCommands_cons]
  cases check with
  | none =>
    rw [closingCommand, decode_encode rfl]
    exact exec_crcEnd_of_some h
  | some c =>
    rw [closingCommand, decode_encode rfl]
    exact exec_crcCheck_of_some h c

/-- Settles O55: the data commands shift the message in, and the closing command shifts in the appended byte and answers
the register, which holds the CRC (R148). -/
theorem libraryCrcCallReturnsTheCrc : Obligations.LibraryCrcCallReturnsTheCrc := by
  intro s data check h
  have hclose := step_issueCommands_closingCommand (s := afterData data 0x00#8 s) rfl check
  have hcrc : lfsrByte (lfsrBytes 0x00#8 data) (appendedByte check) = crc8 data check := by
    rw [crc8_eq_lfsrBytes, lfsrBytes, lfsrBytes, List.foldl_append, List.foldl_cons, List.foldl_nil]
  rw [callCrc8, steps_issueCommands_crcData h, steps_succ_of_next hclose, steps, closeMessage_eq, hcrc, crcResponse_eq,
    ← h]
  rfl

end Sys2Proof.Machine
end

section
/-! PROOFS. The form that a row of the opcode map selects, with its operands (spec/30_encoding.md R61, R62). -/

namespace Sys2Proof

/-- The instruction of a form, its operands read from their places in the command (R61, R62). -/
def instrOfForm (c : Command) : Form → Instr
  | .toRgbRgb => .toRgbRgb c.lanes
  | .toRgbHsl => .toRgbHsl c.lanes
  | .toRgbBad => .toRgbBad (auxField c.cw)
  | .toHslRgb => .toHslRgb c.lanes
  | .toHslHsl => .toHslHsl c.lanes
  | .toHslBad => .toHslBad (auxField c.cw)
  | .crcData => .crcData (byteField c.cw)
  | .crcEnd => .crcEnd
  | .crcCheck => .crcCheck (byteField c.cw)

theorem decode_eq_instrOfForm (c : Command) : decode c = instrOfForm c (formOf (decode c)) := by
  unfold decode
  split_ifs <;> rfl

/-- R62: a word with the pattern of a row under its mask decodes to the form of that row. -/
theorem decode_of_pattern (f : Form) {c : Command} (h : c.cw &&& (opcodeRow f).mask = (opcodeRow f).pattern) :
    decode c = instrOfForm c f := by
  have hform : f = formOf (decode c) := (selectedBy_iff f c).mp (beq_iff_eq.mpr h)
  rw [decode_eq_instrOfForm, ← hform]

end Sys2Proof
end

section
/-! PROOFS. The COLOR forms that run no datapath (spec/40_color.md R120, R122, R124, R125), and batches of COLOR commands
(spec/40_color.md R126, spec/30_encoding.md R73). -/

namespace Sys2Proof.Machine

/-- Settles O16: the row of the opcode map, and the form's equation. -/
theorem toRgbOfRgbReturnsTheRow : Obligations.ToRgbOfRgbReturnsTheRow :=
  ⟨fun _ h => decode_of_pattern .toRgbRgb h, exec_toRgbRgb, readRgbRow_ofRgb⟩

/-- Settles O18: the rows of the opcode map, and each form's equation at its two tags. -/
theorem badFormsRaiseUnsupportedRepresentation : Obligations.BadFormsRaiseUnsupportedRepresentation :=
  ⟨fun _ h => decode_of_pattern .toRgbBad h, fun _ h => decode_of_pattern .toHslBad h, fun s =>
    ⟨exec_toRgbBad 0b10#2 s, exec_toRgbBad 0b11#2 s, exec_toHslBad 0b10#2 s, exec_toHslBad 0b11#2 s⟩⟩

/-- Settles O22: the row is echoed where it is read; default lanes are always read. -/
theorem toHslOfHslReturnsTheRow : Obligations.ToHslOfHslReturnsTheRow := by
  refine ⟨fun _ h => decode_of_pattern .toHslHsl h, fun l0 l1 l2 s => ?_, fun p0 p1 p2 s => ?_⟩
  · exact exec_toHslHsl_of_some (readHslRow_exact l0 l1 l2) s
  · cases hrow : readHslRow (.wire p0 p1 p2) with
    | some row => exact exec_toHslHsl_of_some hrow s
    | none => exact exec_toHslHsl_of_none hrow s

/-! ### Batches -/

/-- A batch of commands each of which gives one response, whatever the state, gives those responses in order. -/
theorem steps_callBatch {Row : Type} {call : Row → Command} {answer : Row → Response}
    (h : ∀ (row : Row) (s : State), exec (decode (call row)) s = .next (respond (answer row) s))
    (rows : List Row) (s : State) :
    steps rows.length (issueCommands (callBatch call rows) s) =
      .next { s with responses := s.responses ++ rows.map answer } := by
  induction rows generalizing s with
  | nil => simp [steps, issueCommands, callBatch]
  | cons row rows ih =>
    have hstep : step (issueCommands (callBatch call (row :: rows)) s) =
        .next (issueCommands (callBatch call rows) (respond (answer row) s)) := by
      rw [callBatch, List.map_cons, step_issueCommands_cons, h]
      rfl
    rw [List.length_cons, steps_succ_of_next hstep, ih]
    simp [respond_eq]

theorem exec_callRgbToHsl (row : RgbRow) (s : State) :
    exec (decode (callRgbToHsl row)) s = .next (respond ⟨0x005#12, .hsl (rgbToHslRow row)⟩ s) := by
  rw [callRgbToHsl, decode_encode rfl]
  exact exec_toHslRgb (Lanes.ofRgb row) s

theorem exec_callRgbToRgb (row : RgbRow) (s : State) :
    exec (decode (callRgbToRgb row)) s = .next (respond ⟨0x001#12, .rgb row⟩ s) := by
  rw [callRgbToRgb, decode_encode rfl]
  exact exec_toRgbRgb (Lanes.ofRgb row) s

theorem exec_callHslToRgb (row : HslRow) (s : State) :
    exec (decode (callHslToRgb row)) s = .next (respond ⟨0x001#12, .rgb (hslToRgbRow row)⟩ s) := by
  rw [callHslToRgb, decode_encode rfl]
  exact exec_toRgbHsl_of_some (readHslRow_ofHsl row) s

theorem exec_callHslToHsl (row : HslRow) (s : State) :
    exec (decode (callHslToHsl row)) s = .next (respond ⟨0x005#12, .hsl row⟩ s) := by
  rw [callHslToHsl, decode_encode rfl]
  exact exec_toHslHsl_of_some (readHslRow_ofHsl row) s

/-- Settles O38: by induction on the rows, each call's command giving its one response. -/
theorem batchesConvertRowByRow : Obligations.BatchesConvertRowByRow := fun s =>
  ⟨fun rows => ⟨steps_callBatch exec_callRgbToHsl rows s, steps_callBatch exec_callRgbToRgb rows s⟩,
    fun rows => ⟨steps_callBatch exec_callHslToRgb rows s, steps_callBatch exec_callHslToHsl rows s⟩⟩

end Sys2Proof.Machine
end

section
/-! PROOFS. The stages of the HSL-to-RGB datapath (spec/40_color.md R101 to R104, R108). -/

namespace Sys2Proof.Machine

/-! ### Chroma (R101) -/

/-- R101: the factor of the saturation. -/
theorem chromaFactor_mem {L : RealNum} (h0 : 0 ≤ L) (h1 : L ≤ 1) : 0 ≤ 1 - |2 * L - 1| ∧ 1 - |2 * L - 1| ≤ 1 := by
  have habs : |2 * L - 1| ≤ 1 := abs_le.mpr ⟨by linarith, by linarith⟩
  exact ⟨sub_nonneg.mpr habs, sub_le_self 1 (abs_nonneg _)⟩

theorem chromaOfHsl_lightness_zero (S : RealNum) : chromaOfHsl S 0 = 0 := by norm_num [chromaOfHsl]

theorem chromaOfHsl_lightness_one (S : RealNum) : chromaOfHsl S 1 = 0 := by norm_num [chromaOfHsl]

theorem chromaOfHsl_saturation_zero (L : RealNum) : chromaOfHsl 0 L = 0 := mul_zero _

/-- Settles O24: the factor stays in the unit interval and has its three values. -/
theorem chromaStageOfHsl : Obligations.ChromaStageOfHsl := fun S L =>
  ⟨rfl, chromaFactor_mem, by norm_num [chromaOfHsl], chromaOfHsl_lightness_zero S, chromaOfHsl_lightness_one S⟩

/-! ### Hue and sector (R102, R103) -/

theorem fmod_add_mul (a : RealNum) {n : RealNum} (hn : 0 < n) (k : ℤ) : fmod (a + n * k) n = fmod a n := by
  refine fmod_eq_of_mem hn (⌊a / n⌋ + k) ?_ (fmod_nonneg a hn) (fmod_lt a hn)
  rw [fmod]
  push_cast
  ring

/-- A hue within one turn is 60 times the coordinate that the sector index is read from. -/
theorem huePrime_sixty_mul {v : RealNum} (h0 : 0 ≤ v) (h6 : v < 6) : (huePrime (60 * v)).val = v := by
  rw [huePrime_val, fmod_of_mem (by linarith) (by linarith), mul_div_cancel_left₀ v (by norm_num)]

theorem huePrime_add_turns (H : RealNum) (n : ℤ) : huePrime (H + 360 * n) = huePrime H := by
  refine Subtype.ext ?_
  rw [huePrime_val, huePrime_val, fmod_add_mul H (by norm_num)]

theorem sector_eq_of_mem {hp : { hp : RealNum // 0 ≤ hp ∧ hp < 6 }} {k : Fin 6} (h0 : (k.val : RealNum) ≤ hp.val)
    (h1 : hp.val < (k.val : RealNum) + 1) : sector hp = k := by
  have hfloor : ⌊hp.val⌋ = (k.val : ℤ) := Int.floor_eq_iff.mpr ⟨h0, h1⟩
  have hval := sector_val hp
  rw [hfloor] at hval
  exact Fin.ext (Int.ofNat_inj.mp hval)

/-- Settles O25: a boundary hue is its residue within the turn, a whole number of sectors. -/
theorem sectorOfAHue : Obligations.SectorOfAHue := by
  refine ⟨fun H => ?_, fun n => ?_⟩
  · obtain ⟨h0, h6⟩ := (huePrime H).property
    exact ⟨huePrime_val H, h0, h6, sector_val _, Nat.le_of_lt_succ (sector (huePrime H)).isLt⟩
  · have hturns : (60 * (n : RealNum)) = 60 * ((n % 6 : ℤ) : RealNum) + 360 * ((n / 6 : ℤ) : RealNum) := by
      have hn : (n : RealNum) = ((n % 6 + 6 * (n / 6) : ℤ) : RealNum) := congrArg _ (Int.emod_add_mul_ediv n 6).symm
      rw [hn]
      push_cast
      ring
    have h0 : (0 : RealNum) ≤ ((n % 6 : ℤ) : RealNum) := by exact_mod_cast Int.emod_nonneg n (by norm_num)
    have h6 : ((n % 6 : ℤ) : RealNum) < 6 := by exact_mod_cast Int.emod_lt_of_pos n (by norm_num)
    rw [hturns, huePrime_add_turns, sector_val, huePrime_sixty_mul h0 h6, Int.floor_intCast]

/-! ### The second component (R104) -/

theorem secondFactor_mem (hp : RealNum) : 0 ≤ 1 - |fmod hp 2 - 1| ∧ 1 - |fmod hp 2 - 1| ≤ 1 := by
  have h0 := fmod_nonneg hp (n := 2) (by norm_num)
  have h2 := fmod_lt hp (n := 2) (by norm_num)
  have habs : |fmod hp 2 - 1| ≤ 1 := abs_le.mpr ⟨by linarith, by linarith⟩
  exact ⟨sub_nonneg.mpr habs, sub_le_self 1 (abs_nonneg _)⟩

theorem secondComponent_of_fmod_le_one (c : RealNum) {hp : RealNum} (h : fmod hp 2 ≤ 1) :
    secondComponent c hp = c * fmod hp 2 := by
  rw [secondComponent, abs_of_nonpos (by linarith)]
  ring

theorem secondComponent_of_one_le_fmod (c : RealNum) {hp : RealNum} (h : 1 ≤ fmod hp 2) :
    secondComponent c hp = c * (2 - fmod hp 2) := by
  rw [secondComponent, abs_of_nonneg (by linarith)]
  ring

/-- R104: above an even boundary the second component rises. -/
theorem secondComponent_even_add (c : RealNum) (n : ℤ) {t : RealNum} (h0 : 0 ≤ t) (h1 : t ≤ 1) :
    secondComponent c (2 * n + t) = c * t := by
  have hmod : fmod (2 * n + t) 2 = t := fmod_eq_of_mem (by norm_num) n rfl h0 (by linarith)
  rw [secondComponent_of_fmod_le_one c (by linarith), hmod]

/-- R104: below an even boundary it falls. -/
theorem secondComponent_even_sub (c : RealNum) (n : ℤ) {t : RealNum} (h0 : 0 ≤ t) (h1 : t ≤ 1) :
    secondComponent c (2 * n - t) = c * t := by
  obtain rfl | hpos := h0.eq_or_lt
  · simpa using secondComponent_even_add c n le_rfl h1
  · have hmod : fmod (2 * n - t) 2 = 2 - t :=
      fmod_eq_of_mem (by norm_num) (n - 1) (by push_cast; ring) (by linarith) (by linarith)
    rw [secondComponent_of_one_le_fmod c (by linarith), hmod, sub_sub_cancel]

/-- Settles O26: the two linear pieces of the factor, and its values at the boundaries. -/
theorem secondComponentStage : Obligations.SecondComponentStage := by
  refine ⟨fun c hp => ?_, fun c n => ⟨?_, ?_⟩⟩
  · obtain ⟨h0, h1⟩ := secondFactor_mem hp
    exact ⟨rfl, h0, h1, secondComponent_of_fmod_le_one c, secondComponent_of_one_le_fmod c⟩
  · simpa using secondComponent_even_add c n (t := 0) le_rfl zero_le_one
  · simpa using secondComponent_even_add c n (t := 1) zero_le_one le_rfl

/-! ### The cast (R108) -/

theorem castU8_toNat_of_mem {v : RealNum} (h0 : 0 ≤ v) (h1 : v < 256) : ((castU8 v).toNat : ℤ) = ⌊v⌋ := by
  have hfloor0 : 0 ≤ ⌊v⌋ := Int.floor_nonneg.mpr h0
  have hfloor1 : ⌊v⌋ < 256 := Int.floor_lt.mpr (by exact_mod_cast h1)
  rw [castU8_toInt, trunc_of_nonneg h0, Int.emod_eq_of_lt hfloor0 hfloor1]

/-- A byte in units of one is cast to itself. -/
theorem castU8_toNat_cast (v : Byte) : castU8 (v.toNat : RealNum) = v := by
  have hlt : (v.toNat : RealNum) < 256 := by exact_mod_cast v.isLt
  have hval := castU8_toNat_of_mem (Nat.cast_nonneg v.toNat) hlt
  rw [Int.floor_natCast] at hval
  exact BitVec.eq_of_toNat_eq (Int.ofNat_inj.mp hval)

/-- Settles O27: by the sign of the value, and the rule's examples evaluated. -/
theorem castKeepsTheLowByte : Obligations.CastKeepsTheLowByte := by
  refine ⟨fun v h => ?_, fun v h => ?_, fun v => castU8_toNat_of_mem, ?_⟩
  · rw [castU8_toInt, trunc_of_nonneg h]
  · rw [castU8_toInt, trunc_of_neg h]
  · decide +kernel

end Sys2Proof.Machine
end

section
/-! PROOFS. The whole HSL-to-RGB datapath (spec/40_color.md R105 to R109, R121, R134). -/

namespace Sys2Proof.Machine

/-- R106: the three components of a hue with chroma `c`, before the lightness offset. -/
def hueTriple (c H : RealNum) : RealNum × RealNum × RealNum :=
  sectorTriple c (secondComponent c (huePrime H).val) (sector (huePrime H))

/-- R107, R108: the row of three components and a lightness offset. -/
def castTriple (p : RealNum × RealNum × RealNum) (m : RealNum) : RgbRow :=
  ⟨castU8 ((p.1 + m) * 255), castU8 ((p.2.1 + m) * 255), castU8 ((p.2.2 + m) * 255)⟩

theorem hslToRgbRow_eq (H S L : RealNum) :
    hslToRgbRow ⟨H, S, L⟩ = castTriple (hueTriple (chromaOfHsl S L) H) (lightnessOffset (chromaOfHsl S L) L) := rfl

/-- R106 as a chain of conditions on the sector. -/
theorem castTriple_sectorTriple (c x m : RealNum) (k : Fin 6) :
    castTriple (sectorTriple c x k) m =
      if (k.val : ℤ) = 0 then castTriple (c, x, 0) m
      else if (k.val : ℤ) = 1 then castTriple (x, c, 0) m
      else if (k.val : ℤ) = 2 then castTriple (0, c, x) m
      else if (k.val : ℤ) = 3 then castTriple (0, x, c) m
      else if (k.val : ℤ) = 4 then castTriple (x, 0, c) m
      else castTriple (c, 0, x) m := by
  fin_cases k <;> rfl

/-- Settles O28: the sector is the floor of the hue coordinate, and each sector has its row. -/
theorem hslToRgbDatapath : Obligations.HslToRgbDatapath := by
  intro H S L c hp x m row
  have hsector : ⌊hp⌋ = ((sector (huePrime H)).val : ℤ) := (sector_val (huePrime H)).symm
  have hlt := (sector (huePrime H)).isLt
  refine ⟨by omega, ?_⟩
  rw [hslToRgbRow_eq, hueTriple, castTriple_sectorTriple, hsector]
  rfl

/-! ### No chroma, and full turns (R121) -/

theorem sectorTriple_zero (k : Fin 6) : sectorTriple 0 0 k = (0, 0, 0) := by
  fin_cases k <;> rfl

theorem hueTriple_zero (H : RealNum) : hueTriple 0 H = (0, 0, 0) := by
  have hx : secondComponent 0 (huePrime H).val = 0 := zero_mul _
  rw [hueTriple, hx, sectorTriple_zero]

/-- Without chroma the row is a grey, whatever the hue. -/
theorem hslToRgbRow_of_chroma_eq_zero {S L : RealNum} (h : chromaOfHsl S L = 0) (H : RealNum) :
    hslToRgbRow ⟨H, S, L⟩ = ⟨castU8 (L * 255), castU8 (L * 255), castU8 (L * 255)⟩ := by
  simp [hslToRgbRow_eq, h, hueTriple_zero, castTriple, lightnessOffset]

theorem hueTriple_add_turns (c H : RealNum) (n : ℤ) : hueTriple c (H + 360 * n) = hueTriple c H := by
  rw [hueTriple, huePrime_add_turns, hueTriple]

/-- Settles O17: the form's equation, the cases without chroma, and the turns taken off by the hue stage. -/
theorem toRgbOfHslRunsTheDatapath : Obligations.ToRgbOfHslRunsTheDatapath := by
  refine ⟨fun _ h => decode_of_pattern .toRgbHsl h, fun l0 l1 l2 s => ?_, fun H L => ?_, fun H S => ⟨?_, ?_⟩,
    fun H S L n => ?_, by decide +kernel⟩
  · exact exec_toRgbHsl_of_some (readHslRow_exact l0 l1 l2) s
  · exact hslToRgbRow_of_chroma_eq_zero (chromaOfHsl_saturation_zero L) H
  · have hcast : castU8 (0 * 255) = 0#8 := by decide +kernel
    rw [hslToRgbRow_of_chroma_eq_zero (chromaOfHsl_lightness_zero S), hcast]
  · have hcast : castU8 (1 * 255) = 255#8 := by decide +kernel
    rw [hslToRgbRow_of_chroma_eq_zero (chromaOfHsl_lightness_one S), hcast]
  · rw [hslToRgbRow_eq, hslToRgbRow_eq, hueTriple_add_turns]

/-! ### Saturation and lightness in [0,1] (R134) -/

theorem secondComponent_mem {c : RealNum} (hc : 0 ≤ c) (hp : RealNum) :
    0 ≤ secondComponent c hp ∧ secondComponent c hp ≤ c := by
  obtain ⟨h0, h1⟩ := secondFactor_mem hp
  exact ⟨mul_nonneg hc h0, mul_le_of_le_one_right hc h1⟩

/-- R106 gives no component but `c`, `x` and zero. -/
theorem sectorTriple_mem {c x : RealNum} (hx0 : 0 ≤ x) (hx : x ≤ c) (k : Fin 6) :
    (0 ≤ (sectorTriple c x k).1 ∧ (sectorTriple c x k).1 ≤ c) ∧
    (0 ≤ (sectorTriple c x k).2.1 ∧ (sectorTriple c x k).2.1 ≤ c) ∧
    (0 ≤ (sectorTriple c x k).2.2 ∧ (sectorTriple c x k).2.2 ≤ c) := by
  have hc : 0 ≤ c := hx0.trans hx
  fin_cases k <;> simp [sectorTriple, hc, hx0, hx]

theorem chromaOfHsl_mem {S L : RealNum} (hS0 : 0 ≤ S) (hS1 : S ≤ 1) (hL0 : 0 ≤ L) (hL1 : L ≤ 1) :
    0 ≤ chromaOfHsl S L ∧ chromaOfHsl S L ≤ 1 - |2 * L - 1| := by
  obtain ⟨h0, -⟩ := chromaFactor_mem hL0 hL1
  exact ⟨mul_nonneg h0 hS0, mul_le_of_le_one_right h0 hS1⟩

/-- A component in the unit interval is cast without a wrap. -/
theorem castU8_scaled_toNat {v : RealNum} (h : 0 ≤ v ∧ v ≤ 1) : ((castU8 (v * 255)).toNat : ℤ) = ⌊v * 255⌋ := by
  obtain ⟨h0, h1⟩ := h
  exact castU8_toNat_of_mem (by linarith) (by linarith)

/-- Settles O29: `c` leaves `m` and `c + m` in the unit interval, and every component lies between 0 and `c`. -/
theorem inRangeHslGivesInRangeCasts : Obligations.InRangeHslGivesInRangeCasts := by
  intro H S L hS0 hS1 hL0 hL1 c x m p inUnit
  have hc : 0 ≤ c ∧ c ≤ 1 - |2 * L - 1| := chromaOfHsl_mem hS0 hS1 hL0 hL1
  have hm : m = L - c / 2 := rfl
  have hlow : 0 ≤ m := by linarith [neg_abs_le (2 * L - 1)]
  have hhigh : c + m ≤ 1 := by linarith [le_abs_self (2 * L - 1)]
  have hx : 0 ≤ x ∧ x ≤ c := secondComponent_mem hc.1 _
  have hunit : ∀ {v : RealNum}, 0 ≤ v ∧ v ≤ c → inUnit (v + m) := fun ⟨h0, h1⟩ => ⟨by linarith, by linarith⟩
  obtain ⟨hr, hg, hb⟩ := sectorTriple_mem hx.1 hx.2 (sector (huePrime H))
  exact ⟨hc, hlow, hhigh, hx, ⟨hunit hr, hunit hg, hunit hb⟩, castU8_scaled_toNat (hunit hr),
    castU8_scaled_toNat (hunit hg), castU8_scaled_toNat (hunit hb)⟩

end Sys2Proof.Machine
end

section
/-! PROOFS. The stages of the RGB-to-HSL datapath over the integers `mx` and `mn` (spec/40_color.md R110 to R118, R130). -/

namespace Sys2Proof.Machine

/-! ### The datapath by its formula (R118) -/

theorem hueStage_eq (row : RgbRow) :
    hueStage row =
      if |chromaOfRgb row - 0| ≤ Config.eps then 0
      else if normalise row.r = cMax row then hueOfChannel row .red
      else if normalise row.g = cMax row then hueOfChannel row .green
      else hueOfChannel row .blue := by
  rw [hueStage, argmaxChannel, apply_ite (hueOfChannel row), apply_ite (hueOfChannel row)]

/-- Settles O30: each stage by its equation. -/
theorem rgbToHslDatapath : Obligations.RgbToHslDatapath := by
  intro r g b Rn Gn Bn cmin cmax l0 chroma L S H
  have hH : hueStage ⟨r, g, b⟩ = H := by
    rw [hueStage_eq, sub_zero]
    rfl
  have hL : guardLightness (rawLightness ⟨r, g, b⟩) = L := by
    rw [guardLightness, sub_zero]
    rfl
  rw [rgbToHslRow, hH, hL]
  rfl

/-! ### The largest and the smallest channel (R111 to R113) -/

/-- `mx` of R130: the largest channel as an integer. -/
def maxByte (row : RgbRow) : ℕ := max (max row.r.toNat row.g.toNat) row.b.toNat

/-- `mn` of R130: the smallest channel as an integer. -/
def minByte (row : RgbRow) : ℕ := min (min row.r.toNat row.g.toNat) row.b.toNat

theorem minByte_le_maxByte (row : RgbRow) : minByte row ≤ maxByte row := by
  simp only [minByte, maxByte]
  omega

theorem maxByte_le (row : RgbRow) : maxByte row ≤ 255 := by
  have hr := row.r.isLt
  have hg := row.g.isLt
  have hb := row.b.isLt
  simp only [maxByte]
  omega

theorem maxByte_eq_zero_iff (row : RgbRow) : maxByte row = 0 ↔ row = ⟨0#8, 0#8, 0#8⟩ := by
  obtain ⟨r, g, b⟩ := row
  simp only [maxByte, RgbRow.mk.injEq, ← BitVec.toNat_inj, BitVec.toNat_ofNat]
  omega

theorem minByte_eq_iff (row : RgbRow) : minByte row = 255 ↔ row = ⟨255#8, 255#8, 255#8⟩ := by
  obtain ⟨r, g, b⟩ := row
  have hr := r.isLt
  have hg := g.isLt
  have hb := b.isLt
  simp only [minByte, RgbRow.mk.injEq, ← BitVec.toNat_inj, BitVec.toNat_ofNat]
  omega

theorem maxByte_eq_minByte_iff (row : RgbRow) : maxByte row = minByte row ↔ row.r = row.g ∧ row.g = row.b := by
  simp only [maxByte, minByte, ← BitVec.toNat_inj]
  omega

theorem cMax_eq (row : RgbRow) : cMax row = (maxByte row : RealNum) / 255 := by
  have h255 : (0 : RealNum) ≤ 255 := by norm_num
  simp only [cMax, max3, normalise, realOfByte, Config.rgbScale, maxByte, max_div_div_right h255, Nat.cast_max]

theorem cMin_eq (row : RgbRow) : cMin row = (minByte row : RealNum) / 255 := by
  have h255 : (0 : RealNum) ≤ 255 := by norm_num
  simp only [cMin, min3, normalise, realOfByte, Config.rgbScale, minByte, min_div_div_right h255, Nat.cast_min]

theorem rawLightness_eq (row : RgbRow) : rawLightness row = ((maxByte row : RealNum) + minByte row) / 510 := by
  rw [rawLightness, cMax_eq, cMin_eq]
  ring

theorem chromaOfRgb_eq (row : RgbRow) : chromaOfRgb row = ((maxByte row : RealNum) - minByte row) / 255 := by
  rw [chromaOfRgb, cMax_eq, cMin_eq, sub_div]

/-! ### The guards (R130) -/

/-- A multiple of 1/510 is within a tolerance below 1/510 only when it is zero. -/
theorem within_tolerance_iff {x tol : RealNum} {k : ℤ} {P : Prop} (hx : x = (k : RealNum) / 510) (hP : k = 0 ↔ P)
    (h0 : 0 < tol) (h1 : tol < 1 / 510) : (|x| ≤ tol ↔ P) ∧ (|x| < tol ↔ P) := by
  rw [← hP, hx]
  by_cases hk : k = 0
  · simp [hk, h0, h0.le]
  · have hone : (1 : RealNum) ≤ |(k : RealNum)| := by exact_mod_cast Int.one_le_abs hk
    have hfar : tol < |(k : RealNum) / 510| := by
      rw [abs_div, abs_of_pos (show (0 : RealNum) < 510 by norm_num)]
      linarith
    simp [hk, hfar.not_ge, hfar.le]

/-- Settles O31: the three guarded values are multiples of 1/510, which vanish at black, at white and at the greys. -/
theorem guardsFireOnlyAtTheExtremes : Obligations.GuardsFireOnlyAtTheExtremes := by
  intro row tol h0 h1
  have hle := minByte_le_maxByte row
  have hmax := maxByte_le row
  have hblack := maxByte_eq_zero_iff row
  have hwhite := minByte_eq_iff row
  have hgrey := maxByte_eq_minByte_iff row
  refine ⟨within_tolerance_iff (k := maxByte row + minByte row) ?_ ?_ h0 h1,
    within_tolerance_iff (k := maxByte row + minByte row - 510) ?_ ?_ h0 h1,
    within_tolerance_iff (k := 2 * (maxByte row - minByte row)) ?_ ?_ h0 h1⟩
  · rw [rawLightness_eq]
    push_cast
    ring
  · rw [← hblack]
    omega
  · rw [rawLightness_eq]
    push_cast
    ring
  · rw [← hwhite]
    omega
  · rw [chromaOfRgb_eq]
    push_cast
    ring
  · rw [← hgrey]
    omega

theorem eps_pos : 0 < Config.eps := by norm_num [Config.eps]

theorem eps_lt : Config.eps < 1 / 510 := by norm_num [Config.eps]

theorem lowGuard_iff (row : RgbRow) : |rawLightness row - 0| ≤ Config.eps ↔ row = ⟨0#8, 0#8, 0#8⟩ :=
  (guardsFireOnlyAtTheExtremes row Config.eps eps_pos eps_lt).1.1

theorem highGuard_iff (row : RgbRow) : |rawLightness row - 1| ≤ Config.eps ↔ row = ⟨255#8, 255#8, 255#8⟩ :=
  (guardsFireOnlyAtTheExtremes row Config.eps eps_pos eps_lt).2.1.1

theorem greyGuard_iff (row : RgbRow) : |chromaOfRgb row - 0| ≤ Config.eps ↔ row.r = row.g ∧ row.g = row.b :=
  (guardsFireOnlyAtTheExtremes row Config.eps eps_pos eps_lt).2.2.1

/-- The lightness is guarded at black and at white only. -/
theorem guardLightness_rawLightness {row : RgbRow} (hblack : row ≠ ⟨0#8, 0#8, 0#8⟩)
    (hwhite : row ≠ ⟨255#8, 255#8, 255#8⟩) : guardLightness (rawLightness row) = rawLightness row := by
  rw [guardLightness, if_neg (mt (lowGuard_iff row).mp hblack), if_neg (mt (highGuard_iff row).mp hwhite)]

theorem rgbToHslRow_black : rgbToHslRow ⟨0#8, 0#8, 0#8⟩ = ⟨0, -1, 1 / 1000000⟩ := by decide +kernel

theorem rgbToHslRow_white : rgbToHslRow ⟨255#8, 255#8, 255#8⟩ = ⟨0, 1, 999999 / 1000000⟩ := by decide +kernel

/-! ### Lightness and saturation between black and white (R131, R133) -/

section
variable {row : RgbRow} (hblack : row ≠ ⟨0#8, 0#8, 0#8⟩) (hwhite : row ≠ ⟨255#8, 255#8, 255#8⟩)
include hblack hwhite

/-- The sum `mx + mn` stays off its two extremes. -/
theorem maxByte_add_minByte_mem :
    (1 : RealNum) ≤ (maxByte row : RealNum) + minByte row ∧ (maxByte row : RealNum) + minByte row ≤ 509 := by
  have hle := minByte_le_maxByte row
  have hmax := maxByte_le row
  have h0 : maxByte row ≠ 0 := mt (maxByte_eq_zero_iff row).mp hblack
  have h255 : minByte row ≠ 255 := mt (minByte_eq_iff row).mp hwhite
  have h1 : 1 ≤ maxByte row + minByte row := by omega
  have h509 : maxByte row + minByte row ≤ 509 := by omega
  exact ⟨by exact_mod_cast h1, by exact_mod_cast h509⟩

theorem rgbToHslRow_l : (rgbToHslRow row).l = ((maxByte row : RealNum) + minByte row) / 510 := by
  rw [← rawLightness_eq]
  exact guardLightness_rawLightness hblack hwhite

theorem one_le_divisor : 1 ≤ 255 - |(maxByte row : RealNum) + minByte row - 255| := by
  obtain ⟨h1, h509⟩ := maxByte_add_minByte_mem hblack hwhite
  have habs : |(maxByte row : RealNum) + minByte row - 255| ≤ 254 := abs_le.mpr ⟨by linarith, by linarith⟩
  linarith

end

theorem saturationDivisor_rawLightness (row : RgbRow) :
    saturationDivisor (rawLightness row) = (255 - |(maxByte row : RealNum) + minByte row - 255|) / 255 := by
  have hcentre : 2 * rawLightness row - 1 = ((maxByte row : RealNum) + minByte row - 255) / 255 := by
    rw [rawLightness_eq]
    ring
  rw [saturationDivisor, hcentre, abs_div, abs_of_pos (show (0 : RealNum) < 255 by norm_num)]
  ring

/-- R112, R113: twice the way from the lightness to the maximum is the chroma. -/
theorem two_mul_cMax_sub_rawLightness (row : RgbRow) : 2 * (cMax row - rawLightness row) = chromaOfRgb row := by
  rw [rawLightness, chromaOfRgb]
  ring

section
variable {row : RgbRow} (hblack : row ≠ ⟨0#8, 0#8, 0#8⟩) (hwhite : row ≠ ⟨255#8, 255#8, 255#8⟩)
include hblack hwhite

theorem saturationDivisor_ge : 1 / 255 ≤ saturationDivisor (rawLightness row) := by
  rw [saturationDivisor_rawLightness]
  exact div_le_div_of_nonneg_right (one_le_divisor hblack hwhite) (by norm_num)

theorem rgbToHslRow_s_eq_chroma_div :
    (rgbToHslRow row).s = chromaOfRgb row / saturationDivisor (rawLightness row) := by
  rw [← two_mul_cMax_sub_rawLightness, rgbToHslRow, guardLightness_rawLightness hblack hwhite, saturationStage]

theorem rgbToHslRow_s :
    (rgbToHslRow row).s =
      ((maxByte row : RealNum) - minByte row) / (255 - |(maxByte row : RealNum) + minByte row - 255|) := by
  rw [rgbToHslRow_s_eq_chroma_div hblack hwhite, chromaOfRgb_eq, saturationDivisor_rawLightness,
    div_div_div_cancel_right₀ (by norm_num)]

theorem rgbToHslRow_s_mem : 0 ≤ (rgbToHslRow row).s ∧ (rgbToHslRow row).s ≤ 1 := by
  have hle : (minByte row : RealNum) ≤ maxByte row := by exact_mod_cast minByte_le_maxByte row
  have hmax : (maxByte row : RealNum) ≤ 255 := by exact_mod_cast maxByte_le row
  have hmin : (0 : RealNum) ≤ minByte row := Nat.cast_nonneg _
  have hdivisor := one_le_divisor hblack hwhite
  have habs : |(maxByte row : RealNum) + minByte row - 255| ≤ 255 - (maxByte row - minByte row) :=
    abs_le.mpr ⟨by linarith, by linarith⟩
  rw [rgbToHslRow_s hblack hwhite]
  exact ⟨div_nonneg (by linarith) (by linarith), div_le_one_of_le₀ (by linarith) (by linarith)⟩

end

end Sys2Proof.Machine
end

section
/-! PROOFS. The hue stage (spec/40_color.md R116, R117, R123, R131 to R133). -/

namespace Sys2Proof.Machine

/-! ### The channels of a row -/

theorem cMin_le_channelValue (row : RgbRow) (ch : Channel) : cMin row ≤ channelValue row ch := by
  cases ch with
  | red => exact min_le_of_left_le (min_le_left _ _)
  | green => exact min_le_of_left_le (min_le_right _ _)
  | blue => exact min_le_right _ _

theorem channelValue_le_cMax (row : RgbRow) (ch : Channel) : channelValue row ch ≤ cMax row := by
  cases ch with
  | red => exact le_max_of_le_left (le_max_left _ _)
  | green => exact le_max_of_le_left (le_max_right _ _)
  | blue => exact le_max_right _ _

theorem cMax_eq_channelValue {row : RgbRow} {ch : Channel}
    (h : ∀ other, channelValue row other ≤ channelValue row ch) : cMax row = channelValue row ch :=
  le_antisymm (max_le (max_le (h .red) (h .green)) (h .blue)) (channelValue_le_cMax row ch)

theorem cMin_eq_channelValue {row : RgbRow} {ch : Channel}
    (h : ∀ other, channelValue row ch ≤ channelValue row other) : cMin row = channelValue row ch :=
  le_antisymm (cMin_le_channelValue row ch) (le_min (le_min (h .red) (h .green)) (h .blue))

/-- R116: the selected channel attains the maximum. -/
theorem channelValue_argmaxChannel (row : RgbRow) : channelValue row (argmaxChannel row) = cMax row := by
  unfold argmaxChannel
  split_ifs with hr hg
  · exact hr
  · exact hg
  · obtain hmax | hblue := max_choice (max (normalise row.r) (normalise row.g)) (normalise row.b)
    · obtain hred | hgreen := max_choice (normalise row.r) (normalise row.g)
      · exact absurd (hred.symm.trans hmax.symm) hr
      · exact absurd (hgreen.symm.trans hmax.symm) hg
    · exact hblue.symm

/-! ### Greys and coloured rows (R117) -/

theorem hueStage_of_grey {row : RgbRow} (h : row.r = row.g ∧ row.g = row.b) : hueStage row = 0 :=
  if_pos ((greyGuard_iff row).mpr h)

theorem hueStage_of_not_grey {row : RgbRow} (h : ¬(row.r = row.g ∧ row.g = row.b)) :
    hueStage row = hueOfChannel row (argmaxChannel row) :=
  if_neg (mt (greyGuard_iff row).mp h)

theorem chromaOfRgb_of_grey {row : RgbRow} (h : row.r = row.g ∧ row.g = row.b) : chromaOfRgb row = 0 := by
  rw [chromaOfRgb_eq, (maxByte_eq_minByte_iff row).mpr h, sub_self, zero_div]

/-- Two different bytes differ by at least one. -/
theorem chromaOfRgb_ge {row : RgbRow} (h : ¬(row.r = row.g ∧ row.g = row.b)) : 1 / 255 ≤ chromaOfRgb row := by
  have hne := mt (maxByte_eq_minByte_iff row).mp h
  have hlt : minByte row + 1 ≤ maxByte row := by
    have hle := minByte_le_maxByte row
    omega
  have hcast : (minByte row : RealNum) + 1 ≤ maxByte row := by exact_mod_cast hlt
  rw [chromaOfRgb_eq]
  exact div_le_div_of_nonneg_right (by linarith) (by norm_num)

theorem chromaOfRgb_pos {row : RgbRow} (h : ¬(row.r = row.g ∧ row.g = row.b)) : 0 < chromaOfRgb row :=
  lt_of_lt_of_le (by norm_num) (chromaOfRgb_ge h)

/-! ### The range of the hue (R131) -/

theorem channelValue_sub_div_chroma_mem {row : RgbRow} (h : ¬(row.r = row.g ∧ row.g = row.b)) (ch ch' : Channel) :
    -1 ≤ (channelValue row ch - channelValue row ch') / chromaOfRgb row ∧
      (channelValue row ch - channelValue row ch') / chromaOfRgb row ≤ 1 := by
  have hpos := chromaOfRgb_pos h
  have hchroma : chromaOfRgb row = cMax row - cMin row := rfl
  have h0 := cMin_le_channelValue row ch
  have h1 := channelValue_le_cMax row ch
  have h0' := cMin_le_channelValue row ch'
  have h1' := channelValue_le_cMax row ch'
  rw [le_div_iff₀ hpos, div_le_iff₀ hpos]
  exact ⟨by linarith, by linarith⟩

theorem hueOfChannel_mem {row : RgbRow} (h : ¬(row.r = row.g ∧ row.g = row.b)) (ch : Channel) :
    0 ≤ hueOfChannel row ch ∧ hueOfChannel row ch < 360 := by
  cases ch with
  | red =>
    have h0 := fmod_nonneg ((normalise row.g - normalise row.b) / chromaOfRgb row) (n := 6) (by norm_num)
    have h6 := fmod_lt ((normalise row.g - normalise row.b) / chromaOfRgb row) (n := 6) (by norm_num)
    rw [hueOfChannel]
    exact ⟨by linarith, by linarith⟩
  | green =>
    obtain ⟨hlow, hhigh⟩ := channelValue_sub_div_chroma_mem h .blue .red
    simp only [channelValue] at hlow hhigh
    rw [hueOfChannel]
    exact ⟨by linarith, by linarith⟩
  | blue =>
    obtain ⟨hlow, hhigh⟩ := channelValue_sub_div_chroma_mem h .red .green
    simp only [channelValue] at hlow hhigh
    rw [hueOfChannel]
    exact ⟨by linarith, by linarith⟩

theorem hueStage_mem (row : RgbRow) : 0 ≤ hueStage row ∧ hueStage row < 360 := by
  by_cases h : row.r = row.g ∧ row.g = row.b
  · rw [hueStage_of_grey h]
    norm_num
  · rw [hueStage_of_not_grey h]
    exact hueOfChannel_mem h _

/-! ### Ties for the maximum (R132) -/

theorem fmod_six_one : fmod 1 6 = 1 := fmod_of_mem (by norm_num) (by norm_num)

theorem fmod_six_neg {t : RealNum} (h0 : 0 < t) (h1 : t ≤ 1) : fmod (-t) 6 = 6 - t :=
  fmod_eq_of_mem (by norm_num) (-1) (by push_cast; ring) (by linarith) (by linarith)

/-- With two channels the largest the third is the smallest, a whole chroma away from each of them. -/
theorem quotients_of_tie {row : RgbRow} (hpos : 0 < chromaOfRgb row) {a b low : Channel}
    (ha : channelValue row a = cMax row) (hb : channelValue row b = cMax row)
    (hthree : ∀ ch, ch = a ∨ ch = b ∨ ch = low) :
    (channelValue row a - channelValue row low) / chromaOfRgb row = 1 ∧
      (channelValue row low - channelValue row b) / chromaOfRgb row = -1 := by
  have hmin : cMin row = channelValue row low := by
    refine cMin_eq_channelValue fun other => ?_
    obtain rfl | rfl | rfl := hthree other
    · exact ha ▸ channelValue_le_cMax row low
    · exact hb ▸ channelValue_le_cMax row low
    · exact le_rfl
  rw [ha, hb, ← hmin, ← neg_sub (cMax row), neg_div, ← chromaOfRgb, div_self hpos.ne']
  exact ⟨rfl, rfl⟩

/-- With red and green the largest, both formulas give 60. -/
theorem hueOfChannel_red_eq_green {row : RgbRow} (hpos : 0 < chromaOfRgb row) (hr : channelValue row .red = cMax row)
    (hg : channelValue row .green = cMax row) : hueOfChannel row .red = hueOfChannel row .green := by
  obtain ⟨hred, hgreen⟩ := quotients_of_tie hpos hg hr (low := .blue) fun ch => by cases ch <;> simp
  simp only [channelValue] at hred hgreen
  rw [hueOfChannel, hueOfChannel, hred, hgreen, fmod_six_one]
  norm_num

/-- With red and blue the largest, both formulas give 300. -/
theorem hueOfChannel_red_eq_blue {row : RgbRow} (hpos : 0 < chromaOfRgb row) (hr : channelValue row .red = cMax row)
    (hb : channelValue row .blue = cMax row) : hueOfChannel row .red = hueOfChannel row .blue := by
  obtain ⟨hblue, hred⟩ := quotients_of_tie hpos hr hb (low := .green) fun ch => by cases ch <;> simp
  simp only [channelValue] at hred hblue
  rw [hueOfChannel, hueOfChannel, hred, hblue, fmod_six_neg one_pos le_rfl]
  norm_num

/-- With green and blue the largest, both formulas give 180. -/
theorem hueOfChannel_green_eq_blue {row : RgbRow} (hpos : 0 < chromaOfRgb row)
    (hg : channelValue row .green = cMax row) (hb : channelValue row .blue = cMax row) :
    hueOfChannel row .green = hueOfChannel row .blue := by
  obtain ⟨hgreen, hblue⟩ := quotients_of_tie hpos hb hg (low := .red) fun ch => by cases ch <;> simp
  simp only [channelValue] at hgreen hblue
  rw [hueOfChannel, hueOfChannel, hgreen, hblue]
  norm_num

theorem hueOfChannel_eq_of_tie {row : RgbRow} (hpos : 0 < chromaOfRgb row) {a b : Channel}
    (ha : channelValue row a = cMax row) (hb : channelValue row b = cMax row) :
    hueOfChannel row a = hueOfChannel row b := by
  match a, b with
  | .red, .red | .green, .green | .blue, .blue => rfl
  | .red, .green => exact hueOfChannel_red_eq_green hpos ha hb
  | .green, .red => exact (hueOfChannel_red_eq_green hpos hb ha).symm
  | .red, .blue => exact hueOfChannel_red_eq_blue hpos ha hb
  | .blue, .red => exact (hueOfChannel_red_eq_blue hpos hb ha).symm
  | .green, .blue => exact hueOfChannel_green_eq_blue hpos ha hb
  | .blue, .green => exact (hueOfChannel_green_eq_blue hpos hb ha).symm

/-- R116, R132: the hue of a coloured row, by any channel that attains the maximum. -/
theorem hueStage_eq_hueOfChannel {row : RgbRow} (h : ¬(row.r = row.g ∧ row.g = row.b)) {ch : Channel}
    (hch : channelValue row ch = cMax row) : hueStage row = hueOfChannel row ch := by
  rw [hueStage_of_not_grey h]
  exact hueOfChannel_eq_of_tie (chromaOfRgb_pos h) (channelValue_argmaxChannel row) hch

/-- Settles O34: the tied formulas agree pair by pair. -/
theorem tieOrderCannotBeObserved : Obligations.TieOrderCannotBeObserved :=
  fun _ _ hgrey hch => (hueStage_eq_hueOfChannel hgrey hch).symm

/-! ### The closed form, the ranges and the divisors (R131, R133) -/

/-- The factor 1/255 of the normalised channels cancels in the quotients of R117. -/
theorem normalise_sub_div_chroma (row : RgbRow) (v w : Byte) :
    (normalise v - normalise w) / chromaOfRgb row =
      ((v.toNat : RealNum) - w.toNat) / ((maxByte row : RealNum) - minByte row) := by
  rw [chromaOfRgb_eq, normalise, normalise, ← sub_div]
  exact div_div_div_cancel_right₀ (by norm_num [Config.rgbScale]) _ _

theorem normalise_eq_cMax_iff (row : RgbRow) (v : Byte) : normalise v = cMax row ↔ v.toNat = maxByte row := by
  rw [cMax_eq, normalise, realOfByte, Config.rgbScale, div_left_inj' (by norm_num), Nat.cast_inj]

theorem rgbToHslRow_h (row : RgbRow) :
    (rgbToHslRow row).h =
      if maxByte row = minByte row then 0
      else if row.r.toNat = maxByte row then
        60 * fmod (((row.g.toNat : RealNum) - row.b.toNat) / ((maxByte row : RealNum) - minByte row)) 6
      else if row.g.toNat = maxByte row then
        60 * (((row.b.toNat : RealNum) - row.r.toNat) / ((maxByte row : RealNum) - minByte row) + 2)
      else 60 * (((row.r.toNat : RealNum) - row.g.toNat) / ((maxByte row : RealNum) - minByte row) + 4) := by
  change hueStage row = _
  simp only [hueStage_eq, greyGuard_iff, ← maxByte_eq_minByte_iff, normalise_eq_cMax_iff, hueOfChannel,
    normalise_sub_div_chroma]

/-- Settles O32: the two evaluated extremes, and between them each channel's closed form. -/
theorem rgbToHslClosedForm : Obligations.RgbToHslClosedForm := by
  intro r g b mx mn hsl
  have hblack : mx = 0 ↔ (⟨r, g, b⟩ : RgbRow) = ⟨0#8, 0#8, 0#8⟩ := maxByte_eq_zero_iff ⟨r, g, b⟩
  have hwhite : mn = 255 ↔ (⟨r, g, b⟩ : RgbRow) = ⟨255#8, 255#8, 255#8⟩ := minByte_eq_iff ⟨r, g, b⟩
  by_cases h0 : mx = 0
  · rw [if_pos h0]
    exact (congrArg rgbToHslRow (hblack.mp h0)).trans rgbToHslRow_black
  by_cases h255 : mn = 255
  · rw [if_neg h0, if_pos h255]
    exact (congrArg rgbToHslRow (hwhite.mp h255)).trans rgbToHslRow_white
  · rw [if_neg h0, if_neg h255]
    have hnb := mt hblack.mpr h0
    have hnw := mt hwhite.mpr h255
    exact ⟨rgbToHslRow_l hnb hnw, rgbToHslRow_s hnb hnw, rgbToHslRow_h ⟨r, g, b⟩⟩

theorem ne_black_of_not_grey {row : RgbRow} (h : ¬(row.r = row.g ∧ row.g = row.b)) : row ≠ ⟨0#8, 0#8, 0#8⟩ := by
  rintro rfl
  exact h ⟨rfl, rfl⟩

theorem ne_white_of_not_grey {row : RgbRow} (h : ¬(row.r = row.g ∧ row.g = row.b)) :
    row ≠ ⟨255#8, 255#8, 255#8⟩ := by
  rintro rfl
  exact h ⟨rfl, rfl⟩

theorem rgbToHslRow_s_pos {row : RgbRow} (h : ¬(row.r = row.g ∧ row.g = row.b)) : 0 < (rgbToHslRow row).s := by
  have hdivisor := saturationDivisor_ge (ne_black_of_not_grey h) (ne_white_of_not_grey h)
  rw [rgbToHslRow_s_eq_chroma_div (ne_black_of_not_grey h) (ne_white_of_not_grey h)]
  exact div_pos (chromaOfRgb_pos h) (lt_of_lt_of_le (by norm_num) hdivisor)

theorem rgbToHslRow_s_mem_of_ne_black {row : RgbRow} (hblack : row ≠ ⟨0#8, 0#8, 0#8⟩) :
    0 ≤ (rgbToHslRow row).s ∧ (rgbToHslRow row).s ≤ 1 := by
  by_cases hwhite : row = ⟨255#8, 255#8, 255#8⟩
  · rw [hwhite, rgbToHslRow_white]
    exact ⟨zero_le_one, le_rfl⟩
  · exact rgbToHslRow_s_mem hblack hwhite

/-- R114, R130: the guarded lightness keeps its distance from 0 and 1. -/
theorem rgbToHslRow_l_mem (row : RgbRow) :
    1 / 1000000 ≤ (rgbToHslRow row).l ∧ (rgbToHslRow row).l ≤ 1 - 1 / 1000000 := by
  by_cases hblack : row = ⟨0#8, 0#8, 0#8⟩
  · rw [hblack, rgbToHslRow_black]
    norm_num
  by_cases hwhite : row = ⟨255#8, 255#8, 255#8⟩
  · rw [hwhite, rgbToHslRow_white]
    norm_num
  obtain ⟨h1, h509⟩ := maxByte_add_minByte_mem hblack hwhite
  rw [rgbToHslRow_l hblack hwhite]
  exact ⟨by linarith, by linarith⟩

/-- Settles O33: the range of each channel. -/
theorem rgbToHslRanges : Obligations.RgbToHslRanges := by
  intro row hsl
  obtain ⟨h0, h1⟩ := rgbToHslRow_l_mem row
  refine ⟨hueStage_mem row, ⟨by linarith, by linarith⟩, fun hblack => ?_, rgbToHslRow_s_mem_of_ne_black,
    rgbToHslRow_s_pos⟩
  exact congrArg HslRow.s ((congrArg rgbToHslRow hblack).trans rgbToHslRow_black)

/-- Settles O35: the guarded lightness at black, at white and between, and the chroma of a coloured row. -/
theorem noDivisionByZeroOfRgb : Obligations.NoDivisionByZeroOfRgb := by
  intro row l
  refine ⟨rgbToHslRow_l_mem row, ?_, fun h => chromaOfRgb_ge (mt (greyGuard_iff row).mpr h)⟩
  split_ifs with hextreme
  · obtain rfl | rfl := hextreme
    · have hl : l = 1 / 1000000 := congrArg HslRow.l rgbToHslRow_black
      rw [hl]
      norm_num [saturationDivisor, abs_of_neg]
    · have hl : l = 999999 / 1000000 := congrArg HslRow.l rgbToHslRow_white
      rw [hl]
      norm_num [saturationDivisor, abs_of_pos]
  · obtain ⟨hblack, hwhite⟩ := not_or.mp hextreme
    have hl : l = rawLightness row := guardLightness_rawLightness hblack hwhite
    rw [hl]
    exact saturationDivisor_ge hblack hwhite

/-! ### The corner cases of `TO_HSL.RGB` (R123) -/

theorem rgbToHslRow_grey {n : Byte} (h0 : n ≠ 0#8) (h255 : n ≠ 255#8) :
    rgbToHslRow ⟨n, n, n⟩ = ⟨0, 0, (n.toNat : RealNum) / 255⟩ := by
  have hblack : (⟨n, n, n⟩ : RgbRow) ≠ ⟨0#8, 0#8, 0#8⟩ := fun h => h0 (congrArg RgbRow.r h)
  have hwhite : (⟨n, n, n⟩ : RgbRow) ≠ ⟨255#8, 255#8, 255#8⟩ := fun h => h255 (congrArg RgbRow.r h)
  have hh : (rgbToHslRow ⟨n, n, n⟩).h = 0 := hueStage_of_grey ⟨rfl, rfl⟩
  have hs : (rgbToHslRow ⟨n, n, n⟩).s = 0 := by
    rw [rgbToHslRow_s_eq_chroma_div hblack hwhite, chromaOfRgb_of_grey ⟨rfl, rfl⟩, zero_div]
  have hl : (rgbToHslRow ⟨n, n, n⟩).l = (n.toNat : RealNum) / 255 := by
    rw [rgbToHslRow_l hblack hwhite]
    simp only [maxByte, minByte, max_self, min_self]
    ring
  exact congr (congrArg₂ HslRow.mk hh hs) hl

theorem normalise_le_iff (v w : Byte) : normalise v ≤ normalise w ↔ v ≤ w := by
  rw [normalise, normalise, realOfByte, realOfByte, Config.rgbScale, div_le_div_iff_of_pos_right (by norm_num),
    Nat.cast_le, BitVec.le_def]

theorem normalise_lt_iff (v w : Byte) : normalise v < normalise w ↔ v < w := by
  rw [normalise, normalise, realOfByte, realOfByte, Config.rgbScale, div_lt_div_iff_of_pos_right (by norm_num),
    Nat.cast_lt, BitVec.lt_def]

/-- R117: with red the largest and green below blue the hue wraps to below a full turn. -/
theorem hueStage_of_green_lt_blue_le_red {row : RgbRow} (hgb : row.g < row.b) (hbr : row.b ≤ row.r) :
    300 ≤ hueStage row := by
  have hgrey : ¬(row.r = row.g ∧ row.g = row.b) := fun h => BitVec.ne_of_lt hgb h.2
  have hgb' : normalise row.g < normalise row.b := (normalise_lt_iff _ _).mpr hgb
  have hbr' : normalise row.b ≤ normalise row.r := (normalise_le_iff _ _).mpr hbr
  have hred : cMax row = channelValue row .red := cMax_eq_channelValue fun
    | .red => le_rfl
    | .green => (hgb'.trans_le hbr').le
    | .blue => hbr'
  obtain ⟨-, h1⟩ := channelValue_sub_div_chroma_mem hgrey .blue .green
  have h0 : 0 < (normalise row.b - normalise row.g) / chromaOfRgb row :=
    div_pos (sub_pos.mpr hgb') (chromaOfRgb_pos hgrey)
  simp only [channelValue] at h1
  rw [hueStage_eq_hueOfChannel hgrey hred.symm, hueOfChannel, ← neg_sub, neg_div, fmod_six_neg h0 h1]
  linarith

/-- Settles O21: the form's equation, the closed form at its corners, and the two examples evaluated. -/
theorem toHslOfRgbRunsTheDatapath : Obligations.ToHslOfRgbRunsTheDatapath := by
  refine ⟨fun _ h => decode_of_pattern .toHslRgb h, fun l0 l1 l2 s => exec_toHslRgb (.exact l0 l1 l2) s,
    rgbToHslRow_black, rgbToHslRow_white, fun n h0 h255 => rgbToHslRow_grey h0 h255, fun r g b hgb hbr => ?_,
    by decide +kernel, by decide +kernel⟩
  exact ⟨hueStage_of_green_lt_blue_le_red (row := ⟨r, g, b⟩) hgb hbr, (hueStage_mem ⟨r, g, b⟩).2⟩

end Sys2Proof.Machine
end

section
/-! PROOFS. There and back (spec/40_color.md R135, R138): the hue of a row names its sector, in which the HSL-to-RGB
datapath finds the three channels again, and chroma and lightness offset come back as `cMax - cMin` and `cMin`. -/

namespace Sys2Proof.Machine

/-! ### The sectors, by the way the middle channel has risen -/

/-- The hue coordinate at which the second component is `t` of the chroma, in each sector: it rises in the even sectors
and falls in the odd ones (R104, R106). -/
def sectorPosition (k : Fin 6) (t : RealNum) : RealNum :=
  match k with
  | 0 => t
  | 1 => 2 - t
  | 2 => 2 + t
  | 3 => 4 - t
  | 4 => 4 + t
  | 5 => 6 - t

theorem secondComponent_sectorPosition (c : RealNum) (k : Fin 6) {t : RealNum} (h0 : 0 ≤ t) (h1 : t ≤ 1) :
    secondComponent c (sectorPosition k t) = c * t := by
  have hrise := fun n : ℤ => secondComponent_even_add c n h0 h1
  have hfall := fun n : ℤ => secondComponent_even_sub c n h0 h1
  match k with
  | 0 => simpa [sectorPosition] using hrise 0
  | 1 => simpa [sectorPosition] using hfall 1
  | 2 => simpa [sectorPosition] using hrise 1
  | 3 => simpa [sectorPosition, show (2 * 2 : RealNum) = 4 by norm_num] using hfall 2
  | 4 => simpa [sectorPosition, show (2 * 2 : RealNum) = 4 by norm_num] using hrise 2
  | 5 => simpa [sectorPosition, show (2 * 3 : RealNum) = 6 by norm_num] using hfall 3

/-- A rise that ends below the next sector in the even sectors, and starts after the boundary in the odd ones. -/
theorem sectorPosition_mem {k : Fin 6} {t : RealNum} (h0 : 0 ≤ t) (h1 : t ≤ 1)
    (h : if k.val % 2 = 0 then t < 1 else 0 < t) :
    (k.val : RealNum) ≤ sectorPosition k t ∧ sectorPosition k t < (k.val : RealNum) + 1 := by
  fin_cases k <;> norm_num [sectorPosition] at h ⊢ <;> constructor <;> linarith

/-- A hue that lies in sector `k`, where the second component is `t` of the chroma. -/
def HueInSector (H : RealNum) (k : Fin 6) (t : RealNum) : Prop :=
  H = 60 * sectorPosition k t ∧ (k.val : RealNum) ≤ sectorPosition k t ∧ sectorPosition k t < (k.val : RealNum) + 1

theorem hueTriple_of_hueInSector (c : RealNum) {H t : RealNum} {k : Fin 6} (h0 : 0 ≤ t) (h1 : t ≤ 1)
    (h : HueInSector H k t) : hueTriple c H = sectorTriple c (c * t) k := by
  obtain ⟨rfl, hlow, hhigh⟩ := h
  have hk0 : (0 : RealNum) ≤ (k.val : RealNum) := Nat.cast_nonneg _
  have hk6 : (k.val : RealNum) + 1 ≤ 6 := by exact_mod_cast Nat.succ_le_of_lt k.isLt
  have hhp : (huePrime (60 * sectorPosition k t)).val = sectorPosition k t :=
    huePrime_sixty_mul (hk0.trans hlow) (hhigh.trans_le hk6)
  rw [hueTriple, sector_eq_of_mem (hhp.symm ▸ hlow) (hhp.symm ▸ hhigh), hhp, secondComponent_sectorPosition c k h0 h1]

/-! ### The sector of a row -/

/-- How far a channel lies from the smallest to the largest one. -/
def riseOf (row : RgbRow) (ch : Channel) : RealNum := (channelValue row ch - cMin row) / chromaOfRgb row

section
variable {row : RgbRow} (hpos : 0 < chromaOfRgb row) (ch : Channel)
include hpos

theorem riseOf_nonneg : 0 ≤ riseOf row ch := div_nonneg (sub_nonneg.mpr (cMin_le_channelValue row ch)) hpos.le

theorem riseOf_le_one : riseOf row ch ≤ 1 :=
  (div_le_one hpos).mpr (sub_le_sub_right (channelValue_le_cMax row ch) _)

theorem chroma_mul_riseOf : chromaOfRgb row * riseOf row ch = channelValue row ch - cMin row :=
  mul_div_cancel₀ _ hpos.ne'

variable {ch}

theorem riseOf_pos (h : cMin row < channelValue row ch) : 0 < riseOf row ch := div_pos (sub_pos.mpr h) hpos

theorem riseOf_lt_one (h : channelValue row ch < cMax row) : riseOf row ch < 1 :=
  (div_lt_one hpos).mpr (sub_lt_sub_right h _)

end

theorem sub_div_chroma_of_low {row : RgbRow} {low : Channel} (hlow : cMin row = channelValue row low) (ch : Channel) :
    (channelValue row ch - channelValue row low) / chromaOfRgb row = riseOf row ch := by
  rw [riseOf, hlow]

theorem low_sub_div_chroma {row : RgbRow} {low : Channel} (hlow : cMin row = channelValue row low) (ch : Channel) :
    (channelValue row low - channelValue row ch) / chromaOfRgb row = -riseOf row ch := by
  rw [← sub_div_chroma_of_low hlow, ← neg_div, neg_sub]

/-! The order of the channels in each sector (R106: the place of `c`, of `x` and of zero). -/

def topChannel (k : Fin 6) : Channel :=
  match k with
  | 0 => .red
  | 1 => .green
  | 2 => .green
  | 3 => .blue
  | 4 => .blue
  | 5 => .red

def middleChannel (k : Fin 6) : Channel :=
  match k with
  | 0 => .green
  | 1 => .red
  | 2 => .blue
  | 3 => .green
  | 4 => .red
  | 5 => .blue

def lowChannel (k : Fin 6) : Channel :=
  match k with
  | 0 => .blue
  | 1 => .blue
  | 2 => .red
  | 3 => .red
  | 4 => .green
  | 5 => .green

theorem eq_top_or_middle_or_low (k : Fin 6) (ch : Channel) :
    ch = topChannel k ∨ ch = middleChannel k ∨ ch = lowChannel k := by
  cases ch <;> revert k <;> decide

/-- The rows whose hue lies in sector `k`: the channels stand in the sector's order, and the tie that belongs to the
next sector is left out. -/
def RowInSector (row : RgbRow) (k : Fin 6) : Prop :=
  (channelValue row (lowChannel k) ≤ channelValue row (middleChannel k) ∧
    channelValue row (middleChannel k) ≤ channelValue row (topChannel k)) ∧
  if k.val % 2 = 0 then channelValue row (middleChannel k) < channelValue row (topChannel k)
  else channelValue row (lowChannel k) < channelValue row (middleChannel k)

theorem grey_of_normalise_eq {row : RgbRow}
    (h : normalise row.r = normalise row.g ∧ normalise row.g = normalise row.b) :
    row.r = row.g ∧ row.g = row.b := by
  obtain ⟨hrg, hgb⟩ := h
  exact ⟨BitVec.le_antisymm ((normalise_le_iff _ _).mp hrg.le) ((normalise_le_iff _ _).mp hrg.ge),
    BitVec.le_antisymm ((normalise_le_iff _ _).mp hgb.le) ((normalise_le_iff _ _).mp hgb.ge)⟩

/-- Three values that are not all equal stand in one of six orders. -/
theorem six_orders {r g b : RealNum} (h : ¬(r = g ∧ g = b)) :
    (b ≤ g ∧ g < r) ∨ (b < r ∧ r ≤ g) ∨ (r ≤ b ∧ b < g) ∨ (r < g ∧ g ≤ b) ∨ (g ≤ r ∧ r < b) ∨ (g < b ∧ b ≤ r) := by
  grind

theorem exists_rowInSector {row : RgbRow} (h : ¬(row.r = row.g ∧ row.g = row.b)) : ∃ k, RowInSector row k := by
  obtain ⟨h0, h1⟩ | ⟨h0, h1⟩ | ⟨h0, h1⟩ | ⟨h0, h1⟩ | ⟨h0, h1⟩ | ⟨h0, h1⟩ := six_orders (mt grey_of_normalise_eq h)
  · exact ⟨0, ⟨h0, h1.le⟩, h1⟩
  · exact ⟨1, ⟨h0.le, h1⟩, h0⟩
  · exact ⟨2, ⟨h0, h1.le⟩, h1⟩
  · exact ⟨3, ⟨h0.le, h1⟩, h0⟩
  · exact ⟨4, ⟨h0, h1.le⟩, h1⟩
  · exact ⟨5, ⟨h0.le, h1⟩, h0⟩

section
variable {row : RgbRow} {k : Fin 6} (h : RowInSector row k)
include h

theorem cMax_of_rowInSector : cMax row = channelValue row (topChannel k) := by
  obtain ⟨⟨hlow, hmid⟩, -⟩ := h
  refine cMax_eq_channelValue fun other => ?_
  obtain rfl | rfl | rfl := eq_top_or_middle_or_low k other
  · exact le_rfl
  · exact hmid
  · exact hlow.trans hmid

theorem cMin_of_rowInSector : cMin row = channelValue row (lowChannel k) := by
  obtain ⟨⟨hlow, hmid⟩, -⟩ := h
  refine cMin_eq_channelValue fun other => ?_
  obtain rfl | rfl | rfl := eq_top_or_middle_or_low k other
  · exact hlow.trans hmid
  · exact hlow
  · exact le_rfl

theorem riseOf_middleChannel_range (hpos : 0 < chromaOfRgb row) :
    if k.val % 2 = 0 then riseOf row (middleChannel k) < 1 else 0 < riseOf row (middleChannel k) := by
  have hmax := cMax_of_rowInSector h
  have hmin := cMin_of_rowInSector h
  obtain ⟨-, hstrict⟩ := h
  split_ifs at hstrict ⊢
  · exact riseOf_lt_one hpos (hmax ▸ hstrict)
  · exact riseOf_pos hpos (hmin ▸ hstrict)

/-- R117: the hue formula of the largest channel is the position that the middle one has in the sector. -/
theorem hueOfChannel_topChannel (hpos : 0 < chromaOfRgb row) :
    hueOfChannel row (topChannel k) = 60 * sectorPosition k (riseOf row (middleChannel k)) := by
  have h0 := riseOf_nonneg hpos (middleChannel k)
  have h1 := riseOf_le_one hpos (middleChannel k)
  have hrange := riseOf_middleChannel_range h hpos
  have hup := sub_div_chroma_of_low (cMin_of_rowInSector h) (middleChannel k)
  have hdown := low_sub_div_chroma (cMin_of_rowInSector h) (middleChannel k)
  match k with
  | 0 => exact congrArg (60 * ·) ((congrArg (fmod · 6) hup).trans (fmod_of_mem h0 (by linarith)))
  | 1 => exact congrArg (60 * ·) ((congrArg (· + 2) hdown).trans (neg_add_eq_sub _ _))
  | 2 => exact congrArg (60 * ·) ((congrArg (· + 2) hup).trans (add_comm _ _))
  | 3 => exact congrArg (60 * ·) ((congrArg (· + 4) hdown).trans (neg_add_eq_sub _ _))
  | 4 => exact congrArg (60 * ·) ((congrArg (· + 4) hup).trans (add_comm _ _))
  | 5 => exact congrArg (60 * ·) ((congrArg (fmod · 6) hdown).trans (fmod_six_neg hrange h1))

/-- R106: the multiplexer puts the largest and the middle channel, each taken from the smallest, back in place. -/
theorem sectorTriple_of_rowInSector :
    sectorTriple (chromaOfRgb row) (channelValue row (middleChannel k) - cMin row) k =
      (normalise row.r - cMin row, normalise row.g - cMin row, normalise row.b - cMin row) := by
  rw [chromaOfRgb, cMax_of_rowInSector h, cMin_of_rowInSector h]
  fin_cases k <;> simp [sectorTriple, topChannel, middleChannel, lowChannel, channelValue]

end

/-- Chroma and hue of a row give its channels back, each taken from the smallest. -/
theorem hueTriple_chroma_hueStage (row : RgbRow) :
    hueTriple (chromaOfRgb row) (hueStage row) =
      (normalise row.r - cMin row, normalise row.g - cMin row, normalise row.b - cMin row) := by
  by_cases hgrey : row.r = row.g ∧ row.g = row.b
  · have hmin : cMin row = normalise row.b := by
      simp only [cMin, min3, hgrey.1, hgrey.2, min_self]
    rw [chromaOfRgb_of_grey hgrey, hueTriple_zero, hmin, hgrey.1, hgrey.2, sub_self]
  · have hpos := chromaOfRgb_pos hgrey
    obtain ⟨k, hk⟩ := exists_rowInSector hgrey
    have h0 := riseOf_nonneg hpos (middleChannel k)
    have h1 := riseOf_le_one hpos (middleChannel k)
    have hin : HueInSector (hueStage row) k (riseOf row (middleChannel k)) :=
      ⟨(hueStage_eq_hueOfChannel hgrey (cMax_of_rowInSector hk).symm).trans (hueOfChannel_topChannel hk hpos),
        sectorPosition_mem h0 h1 (riseOf_middleChannel_range hk hpos)⟩
    rw [hueTriple_of_hueInSector _ h0 h1 hin, chroma_mul_riseOf hpos, sectorTriple_of_rowInSector hk]

/-! ### Chroma and lightness offset of a converted row -/

theorem chromaOfHsl_rgbToHslRow {row : RgbRow} (hblack : row ≠ ⟨0#8, 0#8, 0#8⟩)
    (hwhite : row ≠ ⟨255#8, 255#8, 255#8⟩) :
    chromaOfHsl (rgbToHslRow row).s (rgbToHslRow row).l = chromaOfRgb row := by
  have hdivisor : saturationDivisor (rawLightness row) ≠ 0 :=
    (lt_of_lt_of_le (by norm_num) (saturationDivisor_ge hblack hwhite)).ne'
  have hl : (rgbToHslRow row).l = rawLightness row := guardLightness_rawLightness hblack hwhite
  rw [rgbToHslRow_s_eq_chroma_div hblack hwhite, hl]
  exact mul_div_cancel₀ _ hdivisor

theorem lightnessOffset_chroma_rawLightness (row : RgbRow) :
    lightnessOffset (chromaOfRgb row) (rawLightness row) = cMin row := by
  rw [lightnessOffset, chromaOfRgb, rawLightness]
  ring

/-- R110, R107, R108: a channel put back on the smallest one is the byte it was normalised from. -/
theorem castU8_normalise (v : Byte) (m : RealNum) : castU8 ((normalise v - m + m) * 255) = v := by
  have hscaled : (normalise v - m + m) * 255 = (v.toNat : RealNum) := by
    rw [sub_add_cancel]
    exact div_mul_cancel₀ _ (by norm_num [Config.rgbScale])
  rw [hscaled, castU8_toNat_cast]

theorem hslToRgbRow_rgbToHslRow {row : RgbRow} (hblack : row ≠ ⟨0#8, 0#8, 0#8⟩)
    (hwhite : row ≠ ⟨255#8, 255#8, 255#8⟩) : hslToRgbRow (rgbToHslRow row) = row := by
  have hh : (rgbToHslRow row).h = hueStage row := rfl
  have hl : (rgbToHslRow row).l = rawLightness row := guardLightness_rawLightness hblack hwhite
  calc hslToRgbRow (rgbToHslRow row)
      = castTriple (hueTriple (chromaOfRgb row) (hueStage row)) (cMin row) := by
        rw [hslToRgbRow_eq, chromaOfHsl_rgbToHslRow hblack hwhite, hh, hl, lightnessOffset_chroma_rawLightness]
    _ = row := by
        rw [hueTriple_chroma_hueStage, castTriple, castU8_normalise, castU8_normalise, castU8_normalise]

/-- Settles O36: between black and white by the stages, and at the two by evaluation. -/
theorem roundTripReturnsEveryRowButWhite : Obligations.RoundTripReturnsEveryRowButWhite := by
  refine ⟨fun row hwhite => ?_, by decide +kernel⟩
  by_cases hblack : row = ⟨0#8, 0#8, 0#8⟩
  · rw [hblack]
    decide +kernel
  · exact hslToRgbRow_rgbToHslRow hblack hwhite

/-- A row other than white comes back from what it converts to (R135). -/
theorem exact_both_ways {row : RgbRow} {hsl : HslRow} (hwhite : row ≠ ⟨255#8, 255#8, 255#8⟩)
    (h : rgbToHslRow row = hsl) : rgbToHslRow row = hsl ∧ hslToRgbRow hsl = row :=
  ⟨h, h ▸ roundTripReturnsEveryRowButWhite.1 row hwhite⟩

/-- Settles O37: the three conversions evaluated, and their way back by the round trip. -/
theorem primariesAreExact : Obligations.PrimariesAreExact :=
  ⟨exact_both_ways (by decide) (by decide +kernel), exact_both_ways (by decide) (by decide +kernel),
    exact_both_ways (by decide) (by decide +kernel)⟩

end Sys2Proof.Machine
end

section
/-! PROOFS. The register's bit and byte steps (spec/41_crc.md R146, R147) and the three CRC forms, which are one byte step
each (spec/41_crc.md R149 to R151). -/

namespace Sys2Proof.Machine

/-- R141: the taps of the feedback. -/
theorem poly8_getLsbD (k : Fin 8) :
    Config.poly8.getLsbD k.val = decide (k.val = 7 ∨ k.val = 4 ∨ k.val = 3 ∨ k.val = 1 ∨ k.val = 0) := by
  revert k
  decide

/-- Settles O44: the bit step's equation, with the pattern read as its taps. -/
theorem lfsrBitIsAGaloisShift : Obligations.LfsrBitIsAGaloisShift := by
  intro s d k
  rw [lfsrBit_getLsbD s d k.isLt, poly8_getLsbD]

/-- Settles O45: the fold over the eight bit numbers, unrolled. -/
theorem lfsrByteIsEightBitSteps : Obligations.LfsrByteIsEightBitSteps := fun _ _ => rfl

/-! ### The register is linear -/

theorem lfsrBit_xor (s t : Byte) (d e : Bool) : lfsrBit (s ^^^ t) (d ^^ e) = lfsrBit s d ^^^ lfsrBit t e := by
  refine BitVec.eq_of_getLsbD_eq fun k hk => ?_
  rw [BitVec.getLsbD_xor, lfsrBit_getLsbD _ _ hk, lfsrBit_getLsbD _ _ hk, lfsrBit_getLsbD _ _ hk,
    BitVec.getLsbD_xor, BitVec.getLsbD_xor, Bool.and_xor_distrib_right]
  split_ifs <;> simp only [Bool.xor_assoc, Bool.xor_left_comm]

theorem lfsrByte_xor (s t y z : Byte) : lfsrByte (s ^^^ t) (y ^^^ z) = lfsrByte s y ^^^ lfsrByte t z := by
  simp only [lfsrByte, List.foldl_cons, List.foldl_nil, BitVec.getLsbD_xor, lfsrBit_xor]

/-- A byte shifted in is fed back nowhere: in its eight steps only bits of the old register leave at the top. -/
theorem lfsrByte_eq_xor (s y : Byte) : lfsrByte s y = lfsrByte s 0x00#8 ^^^ y := by
  calc lfsrByte s y = lfsrByte (s ^^^ 0x00#8) (0x00#8 ^^^ y) := by rw [BitVec.xor_zero, BitVec.zero_xor]
    _ = lfsrByte s 0x00#8 ^^^ y := by rw [lfsrByte_xor, lfsrByte_zero]

theorem lfsrByte_eq_zero_iff (s y : Byte) : lfsrByte s y = 0x00#8 ↔ y = lfsrByte s 0x00#8 := by
  rw [lfsrByte_eq_xor, BitVec.xor_eq_zero_iff, eq_comm]

/-! ### The three forms -/

/-- Settles O39: the row of the opcode map, the form's equation, and the byte step from the empty register. -/
theorem crcDataShiftsAByteIn : Obligations.CrcDataShiftsAByteIn :=
  ⟨fun _ h => decode_of_pattern .crcData h, fun b _ _ h => exec_crcData_of_some h b, lfsrByte_zero, by decide⟩

/-- R150, R151: a closed message leaves an empty register and the response word with the result in its byte field. -/
theorem closeMessage_eq_word (last r : Byte) (s : State) :
    closeMessage last r s =
      { s with
        crcR := some 0x00#8
        responses := s.responses ++ [⟨(lfsrByte r last).setWidth 12 <<< 4 ||| 0x002#12, .absent⟩] } := by
  rw [closeMessage_eq, crcResponse_eq]

/-- Settles O40: the row of the opcode map, and the form's equation. -/
theorem crcEndClosesTheMessage : Obligations.CrcEndClosesTheMessage := by
  refine ⟨fun _ h => decode_of_pattern .crcEnd h, fun r s h => ?_, lfsrByte_zero _, by decide⟩
  rw [exec_crcEnd_of_some h, closeMessage_eq_word]
  rfl

/-- Settles O41: the row of the opcode map, the form's equation, and the check byte XORed into the result. -/
theorem crcCheckClosesTheMessage : Obligations.CrcCheckClosesTheMessage := by
  refine ⟨fun _ h => decode_of_pattern .crcCheck h, fun k r s h => ?_, fun k r => lfsrByte_eq_zero_iff r k,
    fun _ => rfl, lfsrByte_zero, by decide, by decide⟩
  rw [exec_crcCheck_of_some h, closeMessage_eq_word]

end Sys2Proof.Machine
end

section
/-! PROOFS. Bit sequences: the expansion of bytes and the packing of eight bits (spec/41_crc.md R143, R145), and what the
long division does at a position (spec/41_crc.md R144). -/

namespace Sys2Proof.Machine

/-! ### Expansion and packing -/

theorem expandBits_length (bytes : List Byte) : (expandBits bytes).length = 8 * bytes.length := by
  induction bytes with
  | nil => rfl
  | cons y ys ih =>
    rw [expandBits_cons, List.length_append, expandByte_length, ih, List.length_cons]
    omega

theorem expandByte_getElem? (y : Byte) {k : Nat} (hk : k < 8) : (expandByte y)[k]? = some (y.getLsbD (7 - k)) := by
  have hbits : expandByte y = (List.range 8).map fun k => y.getLsbD (7 - k) := rfl
  rw [hbits, List.getElem?_map, List.getElem?_range hk, Option.map_some]

theorem expandBits_getElem? {bytes : List Byte} {n k : Nat} {y : Byte} (hy : bytes[n]? = some y) (hk : k < 8) :
    (expandBits bytes)[8 * n + k]? = some (y.getLsbD (7 - k)) := by
  induction bytes generalizing n with
  | nil => simp at hy
  | cons z ys ih =>
    rw [expandBits_cons]
    cases n with
    | zero =>
      obtain rfl : z = y := by simpa using hy
      rw [Nat.mul_zero, Nat.zero_add, List.getElem?_append_left (by rwa [expandByte_length]), expandByte_getElem? z hk]
    | succ n =>
      rw [List.getElem?_append_right (by rw [expandByte_length]; omega), expandByte_length,
        show 8 * (n + 1) + k - 8 = 8 * n + k by omega]
      exact ih (by simpa using hy)

/-- The number that the bits spell, most significant first, has them as its binary digits in reverse. -/
theorem testBit_foldl_bits (q : List Bool) (k : Nat) :
    (q.foldl (fun n b => 2 * n + Bool.toNat b) 0).testBit k = q.reverse[k]?.getD false := by
  induction q using List.reverseRecOn generalizing k with
  | nil => simp
  | append_singleton q b ih =>
    rw [List.foldl_append, List.foldl_cons, List.foldl_nil, ← Nat.bit_val, List.reverse_concat]
    cases k with
    | zero => exact Nat.testBit_bit_zero b _
    | succ k => rw [Nat.testBit_bit_succ, ih, List.getElem?_cons_succ]

theorem packBits_getLsbD {q : List Bool} (hq : q.length = 8) {k : Nat} (hk : k < 8) :
    q[k]? = some ((packBits q).getLsbD (7 - k)) := by
  have hlow : 7 - k < 8 := by omega
  have hindex : q.length - 1 - (7 - k) = k := by omega
  rw [packBits, BitVec.getLsbD_ofNat, testBit_foldl_bits, List.getElem?_reverse (hq ▸ hlow), hindex,
    List.getElem?_eq_getElem (hq ▸ hk), Option.getD_some, decide_eq_true hlow, Bool.true_and]

/-- Settles O46: the byte a bit number falls in by induction on the bytes, and packing digit by digit. -/
theorem bitsRunMostSignificantFirst : Obligations.BitsRunMostSignificantFirst :=
  ⟨expandBits_length, fun _ _ _ _ => expandBits_getElem?, fun _ _ hq => packBits_getLsbD hq⟩

/-! ### The division step -/

theorem xorWindow_getElem? (i : Nat) (bits : List Bool) (n : Nat) :
    (xorWindow i bits)[n]? =
      bits[n]?.map fun b => if i ≤ n then b ^^ Config.poly9.getD (n - i) false else b :=
  List.getElem?_mapIdx

theorem divideAt_of_false {bits : List Bool} {i : Nat} (h : bits[i]? = some false) : divideAt bits i = bits := by
  simp [divideAt, h]

theorem divideAt_of_true {bits : List Bool} {i : Nat} (h : bits[i]? = some true) :
    divideAt bits i = xorWindow i bits := by
  simp [divideAt, h]

theorem divideAt_length (bits : List Bool) (i : Nat) : (divideAt bits i).length = bits.length := by
  rw [divideAt]
  split_ifs
  · exact List.length_mapIdx
  · rfl

theorem xorWindow_getElem?_window {bits : List Bool} {i j : Nat} {d b : Bool} (hd : Config.poly9[j]? = some d)
    (hb : bits[i + j]? = some b) : (xorWindow i bits)[i + j]? = some (b ^^ d) := by
  simp [xorWindow_getElem?, hb, hd]

theorem xorWindow_getElem?_outside {bits : List Bool} {i n : Nat} (h : n < i ∨ i + 8 < n) :
    (xorWindow i bits)[n]? = bits[n]? := by
  rw [xorWindow_getElem?]
  obtain hbefore | hbehind := h
  · simp [Nat.not_le.mpr hbefore]
  · have hlength : Config.poly9.length = 9 := rfl
    have hpattern : Config.poly9[n - i]? = none := List.getElem?_eq_none (by omega)
    simp [hpattern]

/-- The visited position is cleared: the pattern begins with a 1. -/
theorem divideAt_getElem?_self {bits : List Bool} {i : Nat} (hi : i < bits.length) :
    (divideAt bits i)[i]? = some false := by
  cases hb : bits[i] with
  | false =>
    have hbit : bits[i]? = some false := by rw [List.getElem?_eq_getElem hi, hb]
    rw [divideAt_of_false hbit, hbit]
  | true =>
    have hbit : bits[i]? = some true := by rw [List.getElem?_eq_getElem hi, hb]
    rw [divideAt_of_true hbit]
    exact xorWindow_getElem?_window (j := 0) rfl hbit

/-- A visit leaves the positions before it as they are. -/
theorem divideAt_getElem?_before {bits : List Bool} {i n : Nat} (h : n < i) : (divideAt bits i)[n]? = bits[n]? := by
  rw [divideAt]
  split_ifs
  · exact xorWindow_getElem?_outside (.inl h)
  · rfl

/-! ### The whole division -/

theorem foldl_divideAt_length (positions : List Nat) (bits : List Bool) :
    (positions.foldl divideAt bits).length = bits.length := by
  induction positions generalizing bits with
  | nil => rfl
  | cons i positions ih => rw [List.foldl_cons, ih, divideAt_length]

/-- Every position visited so far stays cleared, since later visits lie behind it. -/
theorem foldl_divideAt_range_getElem? (bits : List Bool) {m i : Nat} (hm : m ≤ bits.length) (hi : i < m) :
    ((List.range m).foldl divideAt bits)[i]? = some false := by
  induction m with
  | zero => omega
  | succ m ih =>
    rw [List.range_succ, List.foldl_append, List.foldl_cons, List.foldl_nil]
    obtain hlast | hbefore : i = m ∨ i < m := by omega
    · rw [hlast]
      exact divideAt_getElem?_self (by rw [foldl_divideAt_length]; omega)
    · rw [divideAt_getElem?_before hbefore]
      exact ih (by omega) hbefore

/-- Settles O47: what a visit does inside and outside its window, and by induction on the positions visited. -/
theorem divisionXorsThePatternIntoTheWindow : Obligations.DivisionXorsThePatternIntoTheWindow := by
  refine ⟨fun _ => rfl, fun bits i => ⟨divideAt_length bits i, divideAt_of_false, fun hbit => ?_⟩, fun bits =>
    ⟨foldl_divideAt_length _ bits, fun i hi => foldl_divideAt_range_getElem? bits (by omega) (by omega)⟩⟩
  have hi : i < bits.length := (List.getElem?_eq_some_iff.mp hbit).1
  refine ⟨divideAt_getElem?_self hi, fun j d b hd hb => ?_, fun n hn => ?_⟩ <;> rw [divideAt_of_true hbit]
  · exact xorWindow_getElem?_window hd hb
  · exact xorWindow_getElem?_outside hn

end Sys2Proof.Machine
end

section
/-! PROOFS. The CRC value of a message and its algebra (spec/41_crc.md R148, R153 to R155, R157, R159). -/

namespace Sys2Proof.Machine

/-- Settles O48: the division step at the front of the sequence is the register's bit step. -/
theorem lfsrComputesTheLongDivision : Obligations.LfsrComputesTheLongDivision := crc8_eq_lfsrBytes

theorem lfsrBytes_cons (r y : Byte) (ys : List Byte) : lfsrBytes r (y :: ys) = lfsrBytes (lfsrByte r y) ys :=
  List.foldl_cons

theorem lfsrBytes_append (r : Byte) (ys zs : List Byte) :
    lfsrBytes r (ys ++ zs) = lfsrBytes (lfsrBytes r ys) zs :=
  List.foldl_append

theorem crc8_eq_lfsrByte (data : List Byte) (check : Option Byte) :
    crc8 data check = lfsrByte (lfsrBytes 0x00#8 data) (appendedByte check) := by
  rw [crc8_eq_lfsrBytes, lfsrBytes_append]
  rfl

/-- R142: without a check byte the appended byte is zero. -/
theorem crc8_none (data : List Byte) : crc8 data none = lfsrByte (lfsrBytes 0x00#8 data) 0x00#8 :=
  crc8_eq_lfsrByte data none

theorem crc8_some (data : List Byte) (c : Byte) : crc8 data (some c) = crc8 data none ^^^ c := by
  rw [crc8_eq_lfsrByte, crc8_none, appendedByte, lfsrByte_eq_xor]

/-- Settles O50: the appended byte goes in behind all feedback. -/
theorem checkByteIsXoredIn : Obligations.CheckByteIsXoredIn := crc8_some

/-- Settles O49: XORed into the CRC, only the CRC itself gives zero. -/
theorem crcRoundTripIsZero : Obligations.CrcRoundTripIsZero := by
  refine fun data => ⟨?_, fun c hc => ?_⟩
  · rw [crc8_some, BitVec.xor_self]
  · rw [crc8_some, BitVec.xor_eq_zero_iff] at hc
    exact hc.symm

/-- Settles O51: only the appended byte goes through the empty register. -/
theorem crcOfTheEmptyMessage : Obligations.CrcOfTheEmptyMessage :=
  ⟨(crc8_eq_lfsrByte [] none).trans (lfsrByte_zero _), fun c =>
    (crc8_eq_lfsrByte [] (some c)).trans (lfsrByte_zero c)⟩

/-! ### The zero initial state (R157) -/

theorem crc8_zero_cons (data : List Byte) (check : Option Byte) : crc8 (0x00#8 :: data) check = crc8 data check := by
  rw [crc8_eq_lfsrByte, crc8_eq_lfsrByte, lfsrBytes_cons, lfsrByte_zero]

theorem crc8_replicate_zero (n : Nat) : crc8 (List.replicate n 0x00#8) none = 0x00#8 := by
  induction n with
  | zero => exact crcOfTheEmptyMessage.1
  | succ n ih => rw [List.replicate_succ, crc8_zero_cons, ih]

theorem lfsrBytes_zipWith_xor {d e : List Byte} (h : d.length = e.length) (r t : Byte) :
    lfsrBytes (r ^^^ t) (List.zipWith (fun a b => a ^^^ b) d e) = lfsrBytes r d ^^^ lfsrBytes t e := by
  induction d generalizing e r t with
  | nil =>
    obtain rfl := List.eq_nil_of_length_eq_zero h.symm
    rfl
  | cons a d ih =>
    obtain ⟨b, e, rfl⟩ := List.exists_cons_of_length_eq_add_one h.symm
    rw [List.zipWith_cons_cons, lfsrBytes_cons, lfsrByte_xor, ih (Nat.succ.inj h), lfsrBytes_cons, lfsrBytes_cons]

theorem crc8_zipWith_xor {d e : List Byte} (h : d.length = e.length) :
    crc8 (List.zipWith (fun a b => a ^^^ b) d e) none = crc8 d none ^^^ crc8 e none := by
  have hregister := lfsrBytes_zipWith_xor h 0x00#8 0x00#8
  rw [BitVec.xor_self] at hregister
  rw [crc8_none, crc8_none, crc8_none, hregister, ← lfsrByte_xor, BitVec.xor_self]

/-- Settles O52: a zero byte leaves the empty register empty, and each byte step is linear. -/
theorem consequencesOfTheZeroInitialState : Obligations.ConsequencesOfTheZeroInitialState :=
  ⟨crc8_zero_cons, crc8_replicate_zero, lfsrByte_zero, fun _ _ => crc8_zipWith_xor⟩

/-! ### The direct form (R159) -/

/-- The direct form runs eight zero bits ahead of the register. -/
theorem foldl_directByte (r : Byte) (data : List Byte) :
    data.foldl directByte (lfsrByte r 0x00#8) = lfsrByte (lfsrBytes r data) 0x00#8 := by
  induction data generalizing r with
  | nil => rfl
  | cons y ys ih => rw [List.foldl_cons, directByte, ← lfsrByte_eq_xor, ih, lfsrBytes_cons]

theorem crc8_none_eq_directCrc (data : List Byte) : crc8 data none = directCrc data := by
  rw [crc8_none, ← foldl_directByte, lfsrByte_zero, directCrc]

/-- Settles O53: the register's last eight zero bits are those the direct form is ahead. -/
theorem directFormAgrees : Obligations.DirectFormAgrees := by
  refine fun data c => ⟨crc8_none_eq_directCrc data, ?_⟩
  rw [crc8_some, crc8_none_eq_directCrc]

end Sys2Proof.Machine
end

section
/-! PROOFS. A message with COLOR commands in between (spec/41_crc.md R152, spec/20_memory.md R50). -/

namespace Sys2Proof.Machine

/-- R50, R149: the state after commands that leave the message open: their data bytes went into a register that held
`r`, and they gave these responses. -/
def afterOpen (bytes : List Byte) (given : List Response) (r : Byte) (s : State) : State :=
  { s with crcR := some (lfsrBytes r bytes), responses := s.responses ++ given }

theorem afterOpen_append (bytes bytes' : List Byte) (given given' : List Response) (r : Byte) (s : State) :
    afterOpen bytes' given' (lfsrBytes r bytes) (afterOpen bytes given r s) =
      afterOpen (bytes ++ bytes') (given ++ given') r s := by
  simp [afterOpen, lfsrBytes_append]

theorem messageByte_of_colorForm {c : Command} (hc : isCrcForm (decode c) = false) : messageByte c = none := by
  unfold messageByte
  cases hform : decode c with
  | crcData _ | crcEnd | crcCheck _ => simp [hform, isCrcForm] at hc
  | toRgbRgb _ | toRgbHsl _ | toRgbBad _ | toHslRgb _ | toHslHsl _ | toHslBad _ => rfl

theorem messageByte_of_crcData {c : Command} {b : Byte} (hc : decode c = .crcData b) : messageByte c = some b := by
  simp [messageByte, hc]

/-- A command that closes no message and can read its lanes gives one response and brings in its data byte, if it has
one. -/
theorem exec_of_open {c : Command} (hopen : closesMessage (decode c) = false) (hread : lanesReadable (decode c) = true)
    {s : State} {r : Byte} (h : s.crcR = some r) :
    ∃ answer : Response, exec (decode c) s = .next (afterOpen (messageByte c).toList [answer] r s) := by
  obtain hcolor | ⟨b, hdata⟩ := colorForm_or_crcData hopen
  · obtain ⟨answer, -, hexec⟩ | ⟨hunread, -⟩ := exec_colorForm_cases hcolor
    · refine ⟨answer, ?_⟩
      rw [hexec, messageByte_of_colorForm hcolor, Option.toList_none, afterOpen, lfsrBytes, List.foldl_nil, ← h]
      rfl
    · rw [hunread] at hread
      cases hread
  · refine ⟨ackResponse, ?_⟩
    rw [messageByte_of_crcData hdata, hdata, exec_crcData_of_some h]
    rfl

/-- R152: the commands of an open message, one step and one response each. -/
theorem steps_issueCommands_open {cs : List Command}
    (hcs : ∀ c ∈ cs, closesMessage (decode c) = false ∧ lanesReadable (decode c) = true)
    {s : State} {r : Byte} (h : s.crcR = some r) (rest : List Command) (n : Nat) :
    ∃ given : List Response, given.length = cs.length ∧
      steps (cs.length + n) (issueCommands (cs ++ rest) s) =
        steps n (issueCommands rest (afterOpen (cs.filterMap messageByte) given r s)) := by
  induction cs generalizing s r with
  | nil => exact ⟨[], rfl, by simp [afterOpen, lfsrBytes, ← h]⟩
  | cons c cs ih =>
    obtain ⟨⟨hopen, hread⟩, hcs⟩ := List.forall_mem_cons.mp hcs
    obtain ⟨answer, hexec⟩ := exec_of_open (s := issueCommands (cs ++ rest) s) hopen hread h
    obtain ⟨given, hlength, hsteps⟩ := ih hcs (s := afterOpen (messageByte c).toList [answer] r s) rfl
    refine ⟨answer :: given, by rw [List.length_cons, hlength, List.length_cons], ?_⟩
    have hbytes : (c :: cs).filterMap messageByte = (messageByte c).toList ++ cs.filterMap messageByte := by
      cases hbyte : messageByte c <;> simp [hbyte]
    rw [List.length_cons, Nat.add_right_comm, List.cons_append,
      steps_succ_of_next ((step_issueCommands_cons c _ s).trans hexec), hbytes, ← List.singleton_append (l := given),
      ← afterOpen_append, ← hsteps]
    rfl

/-- Settles O54: the open message goes into the register, and the closing command answers the register after the
appended byte, which is the CRC (R148). -/
theorem messageGivesItsCrc : Obligations.MessageGivesItsCrc := by
  intro s cs check h hcs
  obtain ⟨given, hlength, hsteps⟩ := steps_issueCommands_open hcs h [closingCommand check] 1
  have hclose :=
    step_issueCommands_closingCommand (s := afterOpen (cs.filterMap messageByte) given 0x00#8 s) rfl check
  refine ⟨given, hlength, ?_⟩
  rw [hsteps, steps_succ_of_next hclose, steps, closeMessage_eq_word, ← crc8_eq_lfsrByte]
  rfl

end Sys2Proof.Machine
end

section
/-! PROOFS. The outcomes of a form, the one exception and what it leaves behind (spec/60_exceptions.md R170, R175, R176,
R181; spec/10_state.md R35). -/

namespace Sys2Proof.Machine

/-! ### Three outcomes, told apart by the form and by `crc_r` -/

/-- R71: the kind of the response that a form gives. -/
def answerKind : Instr → Kind
  | .toRgbRgb _ | .toRgbHsl _ | .toHslRgb _ | .toHslHsl _ => .color
  | .toRgbBad _ | .toHslBad _ => .err
  | .crcData _ => .ack
  | .crcEnd | .crcCheck _ => .crc

theorem lanesReadable_of_crcForm {i : Instr} (hi : isCrcForm i = true) : lanesReadable i = true := by
  cases i with
  | crcData _ | crcEnd | crcCheck _ => rfl
  | toRgbRgb _ | toRgbHsl _ | toRgbBad _ | toHslRgb _ | toHslHsl _ | toHslBad _ => simp [isCrcForm] at hi

theorem exec_of_unreadable {i : Instr} (h : lanesReadable i = false) (s : State) :
    exec i s = .refused .laneNotFinite := by
  cases i with
  | toRgbHsl lanes => exact exec_toRgbHsl_of_none (by simpa [lanesReadable] using h) s
  | toHslHsl lanes => exact exec_toHslHsl_of_none (by simpa [lanesReadable] using h) s
  | toRgbRgb _ | toRgbBad _ | toHslRgb _ | toHslBad _ | crcData _ | crcEnd | crcCheck _ => simp [lanesReadable] at h

/-- From `crc_r` the form puts one response of its kind after those given and leaves the command port alone; neither the
response nor the new `crc_r` depends on the ports. -/
def AnswersInItsKind (i : Instr) (v : Option Byte) : Prop :=
  ∃ (w : Option Byte) (tag : BitVec 2) (byte : Byte) (lanes : ResponseLanes), ∀ port given,
    exec i ⟨v, port, given⟩ = .next ⟨w, port, given ++ [⟨responseWord (answerKind i) tag byte, lanes⟩]⟩

/-- A form that can read its operands, `crc_r` and the lanes, answers. -/
theorem answersInItsKind_of_readable {i : Instr} {v : Option Byte} (hcrc : isCrcForm i = true → v.isSome = true)
    (hread : lanesReadable i = true) : AnswersInItsKind i v := by
  cases i with
  | toRgbRgb lanes => exact ⟨_, _, _, _, fun _ _ => exec_toRgbRgb lanes _⟩
  | toRgbHsl lanes =>
    obtain ⟨row, hrow⟩ := Option.isSome_iff_exists.mp hread
    exact ⟨_, _, _, _, fun _ _ => exec_toRgbHsl_of_some hrow _⟩
  | toRgbBad aux => exact ⟨_, _, _, _, fun _ _ => exec_toRgbBad aux _⟩
  | toHslRgb lanes => exact ⟨_, _, _, _, fun _ _ => exec_toHslRgb lanes _⟩
  | toHslHsl lanes =>
    obtain ⟨row, hrow⟩ := Option.isSome_iff_exists.mp hread
    exact ⟨_, _, _, _, fun _ _ => exec_toHslHsl_of_some hrow _⟩
  | toHslBad aux => exact ⟨_, _, _, _, fun _ _ => exec_toHslBad aux _⟩
  | crcData byte =>
    obtain ⟨r, rfl⟩ := Option.isSome_iff_exists.mp (hcrc rfl)
    exact ⟨_, _, _, _, fun _ _ => exec_crcData_of_some rfl byte⟩
  | crcEnd =>
    obtain ⟨r, rfl⟩ := Option.isSome_iff_exists.mp (hcrc rfl)
    exact ⟨_, _, _, _, fun _ _ => exec_crcEnd_of_some rfl⟩
  | crcCheck check =>
    obtain ⟨r, rfl⟩ := Option.isSome_iff_exists.mp (hcrc rfl)
    exact ⟨_, _, _, _, fun _ _ => exec_crcCheck_of_some rfl check⟩

/-- R35, R181: the three outcomes and the condition of each, the same for every port and all earlier responses. -/
theorem exec_cases (i : Instr) (v : Option Byte) :
    (((isCrcForm i = true → v.isSome = true) ∧ lanesReadable i = true) ∧ AnswersInItsKind i v) ∨
    ((isCrcForm i = true ∧ v = none) ∧ ∀ port given, exec i ⟨v, port, given⟩ = .fault .crcBeforeReset) ∨
    (lanesReadable i = false ∧ ∀ port given, exec i ⟨v, port, given⟩ = .refused .laneNotFinite) := by
  by_cases hread : lanesReadable i = true
  · by_cases hcrc : isCrcForm i = true → v.isSome = true
    · exact .inl ⟨⟨hcrc, hread⟩, answersInItsKind_of_readable hcrc hread⟩
    · obtain ⟨hi, hv⟩ := Classical.not_imp.mp hcrc
      have hnone := Option.not_isSome_iff_eq_none.mp hv
      exact .inr (.inl ⟨⟨hi, hnone⟩, fun _ _ => exec_crcForm_of_none hi hnone⟩)
  · have hunread := Bool.eq_false_of_not_eq_true hread
    exact .inr (.inr ⟨hunread, fun _ _ => exec_of_unreadable hunread _⟩)

/-- Settles O11: by the three cases; a CRC form can always read its lanes, so the conditions exclude each other. -/
theorem outcomesOfAForm : Obligations.OutcomesOfAForm := by
  rintro i ⟨v, port, given⟩
  obtain ⟨⟨hcrc, hread⟩, w, tag, byte, lanes, hexec⟩ | ⟨⟨hi, rfl⟩, hexec⟩ | ⟨hunread, hexec⟩ := exec_cases i v
  · have hsome : isCrcForm i = true → v ≠ none := fun hi => Option.isSome_iff_ne_none.mp (hcrc hi)
    simpa [hexec, hread] using ⟨hcrc, fun _ => hsome⟩
  · simp [hexec, hi, lanesReadable_of_crcForm hi]
  · have hcolor : isCrcForm i = false :=
      Bool.eq_false_of_not_eq_true fun hi => by simp [lanesReadable_of_crcForm hi] at hunread
    simp [hexec, hunread, hcolor, eq_comm (a := Refusal.laneNotFinite)]

/-! ### The exception is the BAD forms' alone (R170) -/

theorem isBadForm_iff (i : Instr) : isBadForm i = true ↔ ∃ aux, i = .toRgbBad aux ∨ i = .toHslBad aux := by
  cases i <;> simp [isBadForm]

theorem exec_badForm {i : Instr} {aux : BitVec 2} (hi : i = .toRgbBad aux ∨ i = .toHslBad aux) (s : State) :
    exec i s = .next (respond (errResponse aux) s) := by
  obtain rfl | rfl := hi
  · exact exec_toRgbBad aux s
  · exact exec_toHslBad aux s

theorem answerKind_eq_err_iff (i : Instr) : answerKind i = .err ↔ isBadForm i = true := by
  cases i <;> simp [answerKind, isBadForm]

theorem kindCode_eq_err_iff (kind : Kind) : kindCode kind = 0b11#2 ↔ kind = .err := by
  cases kind <;> decide

/-- R70: the low two bits of the response word are its kind. -/
theorem responseWord_low_eq_err_iff (kind : Kind) (tag : BitVec 2) (byte : Byte) :
    responseWord kind tag byte &&& 0x003#12 = 0x003#12 ↔ kind = .err := by
  have hlow : responseWord kind tag byte &&& 0x003#12 = commandWord 0#8 0b00#2 (kindCode kind) := by
    refine (commandWord_and byte 0#8 tag 0b00#2 (kindCode kind) 0b11#2).trans ?_
    rw [BitVec.and_zero, BitVec.and_zero, show (0b11#2 : BitVec 2) = BitVec.allOnes 2 from rfl, BitVec.and_allOnes]
  rw [hlow, ← kindCode_eq_err_iff]
  exact ⟨fun h => (opField_commandWord ..).symm.trans (congrArg opField h), fun h => by rw [h]; rfl⟩

/-- Every next state of a form holds one response more, of the form's kind. -/
theorem exec_next_answer {i : Instr} {s t : State} (h : exec i s = .next t) :
    ∃ (tag : BitVec 2) (byte : Byte) (lanes : ResponseLanes),
      t.responses = s.responses ++ [⟨responseWord (answerKind i) tag byte, lanes⟩] := by
  obtain ⟨hcrc, hread⟩ := (outcomesOfAForm i s).1.mp ⟨t, h⟩
  obtain ⟨w, tag, byte, lanes, hexec⟩ := answersInItsKind_of_readable hcrc hread
  have hs : exec i s = _ := hexec s.commandPort s.responses
  rw [h] at hs
  cases hs
  exact ⟨tag, byte, lanes, rfl⟩

/-- Settles O19: the kind of the one response is the form's, which is ERR for the BAD forms alone. -/
theorem onlyBadFormsRaiseTheException : Obligations.OnlyBadFormsRaiseTheException := by
  refine ⟨fun i s hbad => ?_, fun i s t _ hexec => ?_⟩
  · obtain ⟨aux, hi⟩ := (isBadForm_iff i).mp hbad
    exact ⟨_, exec_badForm hi s⟩
  · obtain ⟨tag, byte, lanes, hresp⟩ := exec_next_answer hexec
    refine ⟨_, hresp, ?_, fun aux hi => ?_⟩
    · exact (answerKind_eq_err_iff i).symm.trans (responseWord_low_eq_err_iff _ tag byte).symm
    · rw [exec_badForm hi] at hexec
      cases hexec
      exact (List.singleton_inj.mp (List.append_cancel_left hresp)).symm

/-! ### The exception leaves nothing behind (R175, R176) -/

/-- The responses already given are carried through unread. -/
theorem exec_eq_outcomeAfter (i : Instr) (v : Option Byte) (port : List HostEvent) (given : List Response) :
    exec i ⟨v, port, given⟩ = outcomeAfter given (exec i ⟨v, port, []⟩) := by
  obtain ⟨-, w, tag, byte, lanes, hexec⟩ | ⟨-, hexec⟩ | ⟨-, hexec⟩ := exec_cases i v
  · rw [hexec, hexec]
    rfl
  · rw [hexec, hexec]
    rfl
  · rw [hexec, hexec]
    rfl

/-- Settles O20: the error adds a response alone, and no form reads the responses already given. -/
theorem errorIsNotSticky : Obligations.ErrorIsNotSticky := by
  intro bad s t hbad hexec
  obtain ⟨aux, hform⟩ := (isBadForm_iff bad).mp hbad
  rw [exec_badForm hform] at hexec
  cases hexec
  exact ⟨rfl, rfl, fun i => ⟨exec_eq_outcomeAfter i _ _ _, exec_eq_outcomeAfter i _ _ _⟩⟩

end Sys2Proof.Machine
end

section
/-! PROOFS. The reset event (spec/70_reset_and_hazards.md R190). -/

namespace Sys2Proof.Machine

/-- Settles O7: the step is `applyReset` after the event left the port, and `applyReset` writes `crc_r` alone. -/
theorem resetEventClearsTheRegisterOnly : Obligations.ResetEventClearsTheRegisterOnly := by
  intro s rest hport
  rw [step_of_reset hport, applyReset_eq]

end Sys2Proof.Machine
end

section
/-! PROOFS. Waiting: nothing issued (log entry 3). -/

namespace Sys2Proof.Machine

/-- Settles O8: with an empty port there is no event to accept, and the step's waiting case answers the state itself. -/
theorem idleStepChangesNothing : Obligations.IdleStepChangesNothing := fun _ hport => step_of_nil hport

end Sys2Proof.Machine
end
